-- ==== Sys2Proof/Word.lean ====
section
/-! DEFINITION. The bit vectors on the block's ports (R12, R60). -/

namespace Sys2Proof

/-- The operand port `data` and the widest result fields: `PORT_W = 64` bits (R9, R60). -/
abbrev Word := BitVec 64

/-- The command port `cmd`: 8 bits (R60, R61). -/
abbrev Command := BitVec 8

/-- Text on the host side: the literal a user gives and the strings the host renders (R6, R140). -/
abbrev Text := List Char

end Sys2Proof
end

