-- ==== Sys2Proof/Config.lean ====
section
/-! DEFINITION. The closed enumeration of formats (R25), the abstract values (R17), and every parameter that the spec
leaves OPEN (R9), each an opaque constant: nothing can be proved about its value. -/

namespace Sys2Proof

/-- "a closed enumeration {bf8, bf16, fp16, fp32, fp64}" (R25); all five are always present (R2). -/
inductive Format where
  | bf8
  | bf16
  | fp16
  | fp32
  | fp64
deriving DecidableEq, Repr

/-- The abstract values of R17: the finite rationals with `+0` and `-0` told apart by `negative`, the two infinities,
and one `nan`. The block never holds one: on its ports a value is its carrier-format bits (R27). -/
inductive Val where
  | finite (negative : Bool) (magnitude : ℚ)
  | inf (negative : Bool)
  | nan
deriving DecidableEq, Repr

namespace Config

/-- OPEN (R146, U5, D17): the carrier bits the host makes of a literal whose value is NOT exactly representable in the
carrier. Given the target format and the literal; the low `W` bits count. Log 9. -/
opaque hostToCarrier : Format → Text → Word

/-- OPEN (R146, U8): sign and fraction of the carrier NaN that a literal denoting a NaN becomes. Log 10. -/
opaque hostNaN : Format → Text → Bool × Word

/-- OPEN (R145, U9): decimal literals other than those the spec settles. Log 12. -/
opaque parseDecimal : Text → Option Val

/-- OPEN (R147, U7, C8): integer literals outside the cases the spec settles. Log 13. -/
opaque parseInt0 : Text → Option Int

/-- OPEN (R142, U12): whether text after the word `epsilon` still matches, given that text as it is written, without its
underscores (R141). Log 14. -/
opaque epsilonTail : Text → Bool

/-- OPEN (R157, U10): the hex-float formatter, on the bits of a value in its carrier format. Log 17. -/
opaque hexFloatFormat : Format → Word → Text

/-- OPEN (R157, U10): what the host makes of the formatter's output where the spec gives no strip rule (fp32, fp64) or
where the run of zeros to strip is absent. Log 17. -/
opaque hexFloatOther : Format → Text → Text

/-- OPEN (R156, U11): the five key-diagram templates. Log 17. -/
opaque keyTemplate : Format → Text

/-- OPEN (R159, U13): whether the fraction string is zero-padded to the field's width. Log 18. -/
opaque fractionPadded : Format → Bool

end Config

end Sys2Proof
end

