-- ==== Sys2Proof/Syntax.lean ====
section
/-! DEFINITION. The operations (R63), the 25 instructions (R64, R200) and the request they come in (R60). -/

namespace Sys2Proof

/-- The five operations (R63). -/
inductive Op where
  | desc
  | widen
  | narrow
  | crack
  | eps
deriving DecidableEq, Repr

/-- The closed list of instructions (R200), one per row of the opcode table. Each carries the 64-bit operand `data` of
its request (R60): a bit pattern for WIDEN and CRACK, carrier bits for NARROW, ignored by DESC and EPS (R66, R70). -/
inductive Instr where
  | descBf8 (data : Word)   -- DESC.bf8, R81
  | descBf16 (data : Word)   -- DESC.bf16, R82
  | descFp16 (data : Word)   -- DESC.fp16, R83
  | descFp32 (data : Word)   -- DESC.fp32, R84
  | descFp64 (data : Word)   -- DESC.fp64, R85
  | widenBf8 (data : Word)   -- WIDEN.bf8, R91
  | widenBf16 (data : Word)   -- WIDEN.bf16, R92
  | widenFp16 (data : Word)   -- WIDEN.fp16, R93
  | widenFp32 (data : Word)   -- WIDEN.fp32, R94
  | widenFp64 (data : Word)   -- WIDEN.fp64, R95
  | narrowBf8 (data : Word)   -- NARROW.bf8, R106
  | narrowBf16 (data : Word)   -- NARROW.bf16, R107
  | narrowFp16 (data : Word)   -- NARROW.fp16, R108
  | narrowFp32 (data : Word)   -- NARROW.fp32, R109
  | narrowFp64 (data : Word)   -- NARROW.fp64, R110
  | crackBf8 (data : Word)   -- CRACK.bf8, R131
  | crackBf16 (data : Word)   -- CRACK.bf16, R132
  | crackFp16 (data : Word)   -- CRACK.fp16, R133
  | crackFp32 (data : Word)   -- CRACK.fp32, R134
  | crackFp64 (data : Word)   -- CRACK.fp64, R135
  | epsBf8 (data : Word)   -- EPS.bf8, R121
  | epsBf16 (data : Word)   -- EPS.bf16, R122
  | epsFp16 (data : Word)   -- EPS.fp16, R123
  | epsFp32 (data : Word)   -- EPS.fp32, R124
  | epsFp64 (data : Word)   -- EPS.fp64, R125
deriving DecidableEq, Repr

/-- A request: the command byte and the operand (R60). "A model is free to carry `cmd` and `data` as two separate
inputs". -/
structure Request where
  cmd : Command
  data : Word
deriving DecidableEq, Repr

/-- The operation of an instruction (R64). -/
def Instr.op : Instr → Op
  | .descBf8 _ | .descBf16 _ | .descFp16 _ | .descFp32 _ | .descFp64 _ => .desc
  | .widenBf8 _ | .widenBf16 _ | .widenFp16 _ | .widenFp32 _ | .widenFp64 _ => .widen
  | .narrowBf8 _ | .narrowBf16 _ | .narrowFp16 _ | .narrowFp32 _ | .narrowFp64 _ => .narrow
  | .crackBf8 _ | .crackBf16 _ | .crackFp16 _ | .crackFp32 _ | .crackFp64 _ => .crack
  | .epsBf8 _ | .epsBf16 _ | .epsFp16 _ | .epsFp32 _ | .epsFp64 _ => .eps

/-- The format of an instruction (R64). -/
def Instr.format : Instr → Format
  | .descBf8 _ | .widenBf8 _ | .narrowBf8 _ | .crackBf8 _ | .epsBf8 _ => .bf8
  | .descBf16 _ | .widenBf16 _ | .narrowBf16 _ | .crackBf16 _ | .epsBf16 _ => .bf16
  | .descFp16 _ | .widenFp16 _ | .narrowFp16 _ | .crackFp16 _ | .epsFp16 _ => .fp16
  | .descFp32 _ | .widenFp32 _ | .narrowFp32 _ | .crackFp32 _ | .epsFp32 _ => .fp32
  | .descFp64 _ | .widenFp64 _ | .narrowFp64 _ | .crackFp64 _ | .epsFp64 _ => .fp64

/-- The operand of an instruction (R66). -/
def Instr.data : Instr → Word
  | .descBf8 d | .descBf16 d | .descFp16 d | .descFp32 d | .descFp64 d => d
  | .widenBf8 d | .widenBf16 d | .widenFp16 d | .widenFp32 d | .widenFp64 d => d
  | .narrowBf8 d | .narrowBf16 d | .narrowFp16 d | .narrowFp32 d | .narrowFp64 d => d
  | .crackBf8 d | .crackBf16 d | .crackFp16 d | .crackFp32 d | .crackFp64 d => d
  | .epsBf8 d | .epsBf16 d | .epsFp16 d | .epsFp32 d | .epsFp64 d => d

end Sys2Proof
end

