-- ==== Sys2Proof/Decode.lean ====
section
/-! DEFINITION. From the 72 bits of a request to an instruction or a refusal by name, and back (R60 to R65, R76). -/

namespace Sys2Proof

/-- Why a command is illegal (R65). The block tells the host only `ILLEGAL_REQUEST`; the names are the model's (log 19). -/
inductive DecodeError where
  /-- `cmd[7:6]` is not `00`. -/
  | highBits (bits : BitVec 2)
  /-- `op` is 5, 6 or 7. -/
  | reservedOperation (op : BitVec 3)
  /-- `fmt` is 5, 6 or 7. -/
  | reservedFormat (fmt : BitVec 3)
deriving DecidableEq, Repr

/-- A request as one number of 72 bits, `cmd ++ data` (R60). -/
def Request.toBits (r : Request) : BitVec 72 := r.cmd ++ r.data

/-- `cmd = req[71:64]` and `data = req[63:0]` (R60). -/
def Request.ofBits (w : BitVec 72) : Request := ⟨w.extractLsb' 64 8, w.extractLsb' 0 64⟩

/-- `cmd[7:6]`, which must be `00` (R61). -/
def highBits (cmd : Command) : BitVec 2 := cmd.extractLsb' 6 2

/-- `op = cmd[5:3]` (R14, R61). -/
def opField (cmd : Command) : BitVec 3 := cmd.extractLsb' 3 3

/-- `fmt = cmd[2:0]` (R14, R61). -/
def fmtField (cmd : Command) : BitVec 3 := cmd.extractLsb' 0 3

/-- Operation numbers; 5, 6 and 7 are reserved (R63). -/
def Op.ofField (b : BitVec 3) : Option Op :=
  match b.toNat with
  | 0 => some .desc
  | 1 => some .widen
  | 2 => some .narrow
  | 3 => some .crack
  | 4 => some .eps
  | _ => none

/-- Format tag numbers, in the order of the source's enumeration; 5, 6 and 7 are reserved (R62, C11). -/
def Format.ofField (b : BitVec 3) : Option Format :=
  match b.toNat with
  | 0 => some .bf8
  | 1 => some .bf16
  | 2 => some .fp16
  | 3 => some .fp32
  | 4 => some .fp64
  | _ => none

/-- The number of an operation (R63). -/
def Op.number : Op → Nat
  | .desc => 0
  | .widen => 1
  | .narrow => 2
  | .crack => 3
  | .eps => 4

/-- The number of a format tag (R62). -/
def Format.number : Format → Nat
  | .bf8 => 0
  | .bf16 => 1
  | .fp16 => 2
  | .fp32 => 3
  | .fp64 => 4

/-- The instruction `OP.fmt` on an operand (R64). -/
def Instr.ofParts : Op → Format → Word → Instr
  | .desc, .bf8, d => .descBf8 d
  | .desc, .bf16, d => .descBf16 d
  | .desc, .fp16, d => .descFp16 d
  | .desc, .fp32, d => .descFp32 d
  | .desc, .fp64, d => .descFp64 d
  | .widen, .bf8, d => .widenBf8 d
  | .widen, .bf16, d => .widenBf16 d
  | .widen, .fp16, d => .widenFp16 d
  | .widen, .fp32, d => .widenFp32 d
  | .widen, .fp64, d => .widenFp64 d
  | .narrow, .bf8, d => .narrowBf8 d
  | .narrow, .bf16, d => .narrowBf16 d
  | .narrow, .fp16, d => .narrowFp16 d
  | .narrow, .fp32, d => .narrowFp32 d
  | .narrow, .fp64, d => .narrowFp64 d
  | .crack, .bf8, d => .crackBf8 d
  | .crack, .bf16, d => .crackBf16 d
  | .crack, .fp16, d => .crackFp16 d
  | .crack, .fp32, d => .crackFp32 d
  | .crack, .fp64, d => .crackFp64 d
  | .eps, .bf8, d => .epsBf8 d
  | .eps, .bf16, d => .epsBf16 d
  | .eps, .fp16, d => .epsFp16 d
  | .eps, .fp32, d => .epsFp32 d
  | .eps, .fp64, d => .epsFp64 d

/-- `cmd ↦ (op, fmt) or illegal`, total over all 256 commands (R65, R76). -/
def decodeCommand (cmd : Command) : Except DecodeError (Op × Format) :=
  if highBits cmd = 0#2 then
    match Op.ofField (opField cmd), Format.ofField (fmtField cmd) with
    | some op, some fmt => .ok (op, fmt)
    | none, _ => .error (.reservedOperation (opField cmd))
    | some _, none => .error (.reservedFormat (fmtField cmd))
  else .error (.highBits (highBits cmd))

/-- The decoder: the command selects the instruction, and the operand takes no part in that (R60, R64). -/
def decode (r : Request) : Except DecodeError Instr :=
  match decodeCommand r.cmd with
  | .ok (op, fmt) => .ok (Instr.ofParts op fmt r.data)
  | .error e => .error e

/-- The decoder on the 72 bits of a request. -/
def decodeBits (w : BitVec 72) : Except DecodeError Instr := decode (Request.ofBits w)

/-- The encoder, written from the opcode map (R64). -/
def encode : Instr → Request
  | .descBf8 d => ⟨0x00, d⟩
  | .descBf16 d => ⟨0x01, d⟩
  | .descFp16 d => ⟨0x02, d⟩
  | .descFp32 d => ⟨0x03, d⟩
  | .descFp64 d => ⟨0x04, d⟩
  | .widenBf8 d => ⟨0x08, d⟩
  | .widenBf16 d => ⟨0x09, d⟩
  | .widenFp16 d => ⟨0x0A, d⟩
  | .widenFp32 d => ⟨0x0B, d⟩
  | .widenFp64 d => ⟨0x0C, d⟩
  | .narrowBf8 d => ⟨0x10, d⟩
  | .narrowBf16 d => ⟨0x11, d⟩
  | .narrowFp16 d => ⟨0x12, d⟩
  | .narrowFp32 d => ⟨0x13, d⟩
  | .narrowFp64 d => ⟨0x14, d⟩
  | .crackBf8 d => ⟨0x18, d⟩
  | .crackBf16 d => ⟨0x19, d⟩
  | .crackFp16 d => ⟨0x1A, d⟩
  | .crackFp32 d => ⟨0x1B, d⟩
  | .crackFp64 d => ⟨0x1C, d⟩
  | .epsBf8 d => ⟨0x20, d⟩
  | .epsBf16 d => ⟨0x21, d⟩
  | .epsFp16 d => ⟨0x22, d⟩
  | .epsFp32 d => ⟨0x23, d⟩
  | .epsFp64 d => ⟨0x24, d⟩

/-- The encoder into the 72 bits of a request. -/
def encodeBits (i : Instr) : BitVec 72 := (encode i).toBits

/-- The request of an operation on a format (R60, R64): what the host builds (R149). -/
def requestOf (op : Op) (fmt : Format) (data : Word) : Request := encode (Instr.ofParts op fmt data)

/-- The request whose bits the opcode table numbers: its 8 bits are `cmd`, and the operand's 64 bits follow from bit 8
(log 5). Bits at or above `nbits` are 0. -/
def tableRequest (nbits w : Nat) : Request :=
  let bits := w % 2 ^ nbits
  ⟨BitVec.ofNat 8 bits, BitVec.ofNat 64 (bits / 2 ^ 8)⟩

/-- The instruction that the decoder reads from an opcode-table word. -/
def decodeTableWord (nbits w : Nat) : Option Instr :=
  match decode (tableRequest nbits w) with
  | .ok i => some i
  | .error _ => none

end Sys2Proof
end

