-- ==== Sys2Proof/Machine/Formats.lean ====
section
/-! DEFINITION. The format table and what follows from it: constants of the block, not state (R9, R16, R24, R39). -/

namespace Sys2Proof

/-- `E`: exponent bits (R24). -/
abbrev Format.exponentBits : Format → Nat
  | .bf8 => 5
  | .bf16 => 8
  | .fp16 => 5
  | .fp32 => 8
  | .fp64 => 11

/-- `F`: fraction bits (R24). -/
abbrev Format.fractionBits : Format → Nat
  | .bf8 => 2
  | .bf16 => 7
  | .fp16 => 10
  | .fp32 => 23
  | .fp64 => 52

/-- Sign bits, always 1 (R16, R24). -/
abbrev Format.signBits (_ : Format) : Nat := 1

/-- `T`: total bits (R24). -/
abbrev Format.totalBits : Format → Nat
  | .bf8 => 8
  | .bf16 => 16
  | .fp16 => 16
  | .fp32 => 32
  | .fp64 => 64

/-- `B`: exponent bias (R24). -/
abbrev Format.bias : Format → Nat
  | .bf8 => 15
  | .bf16 => 127
  | .fp16 => 15
  | .fp32 => 127
  | .fp64 => 1023

/-- The carrier: the native format that a value of `f` travels in (R16, R27, C2). -/
abbrev Format.carrier : Format → Format
  | .bf8 => .fp16
  | .bf16 => .fp32
  | .fp16 => .fp16
  | .fp32 => .fp32
  | .fp64 => .fp64

/-- `W`: carrier width (R9, R27). -/
abbrev Format.carrierBits (f : Format) : Nat := f.carrier.totalBits

/-- `d = W - T`: the bits that narrowing discards (R9, R16). -/
abbrev Format.discardedBits (f : Format) : Nat := f.carrierBits - f.totalBits

/-- The narrow formats bf8 and bf16, "with no native arithmetic hardware representation" (R19). -/
abbrev Format.isNarrow : Format → Bool
  | .bf8 => true
  | .bf16 => true
  | .fp16 => false
  | .fp32 => false
  | .fp64 => false

/-- `NAN_FORCE_BIT`: the fraction bit forced to 1 when a NaN's truncated fraction is zero, "its second-most-significant
fraction bit" (R9, R103, C1, D8). Log 6. -/
abbrev Format.nanForceBit (f : Format) : Nat := f.fractionBits - 2

/-- The machine-epsilon literals (R120). -/
def Format.epsilon : Format → Word
  | .bf8 => 0x34
  | .bf16 => 0x3C00
  | .fp16 => 0x1400
  | .fp32 => 0x34000000
  | .fp64 => 0x3CB0000000000000

end Sys2Proof
end

