-- ==== Sys2Proof/Machine/State.lean ====
section
/-! DEFINITION. What crosses the block's ports, as plain data (R60, R68). The block itself has no state (R20 to R23, R33
to R36): the fields of `State` are its inputs and outputs (R39, log 1). -/

namespace Sys2Proof.Machine

/-- A response (R68): "a sum type with one constructor per operation plus one per failure, so that undriven fields do
not exist". Field widths are those of R68. -/
inductive Response where
  /-- DESC: `total_bits`, `sign_bits`, `exponent_bits`, `fraction_bits`, `bias` (R80). -/
  | desc (totalBits : BitVec 7) (signBits : BitVec 1) (exponentBits : BitVec 4) (fractionBits : BitVec 6)
      (bias : BitVec 10)
  /-- WIDEN: `value`, the carrier bits zero-extended (R90). -/
  | widen (value : Word)
  /-- NARROW: `pattern`, the bit pattern zero-extended (R100). -/
  | narrow (pattern : Word)
  /-- CRACK: `sign`, `exponent`, `fraction` (R130). -/
  | crack (sign : BitVec 1) (exponent : BitVec 11) (fraction : BitVec 52)
  /-- EPS: `pattern` (R120). -/
  | eps (pattern : Word)
  /-- Status `OUT_OF_RANGE`: no result field, nothing recorded (R171). -/
  | outOfRange
  /-- Status `ILLEGAL_REQUEST`: no result field (R172). -/
  | illegalRequest
deriving DecidableEq, Repr

/-- The interface of the block between two steps. -/
structure State where
  /-- The inputs: the requests issued and not yet answered, oldest first (R51, R60). -/
  requests : List Request
  /-- The outputs: the responses given so far, oldest first (R37, R51, R68). -/
  responses : List Response
deriving DecidableEq, Repr

/-- The block never stops: its failures are answers, and "the block's step function is total and never stuck" (R187,
R194). So there is no reason to stop: nothing raises a fault (log 3). -/
inductive Fault where
deriving DecidableEq, Repr

/-- Why an instruction has no meaning in the model. -/
inductive Refusal where
  /-- Raised by `exec` for an instruction that has no meaning yet. Safe. No arm of this model raises it. -/
  | notModelled (mnemonic : String)
deriving DecidableEq, Repr

/-- After reset (R36, R190): no register exists that could hold a value, no request is pending, none has been answered
(log 2). "The block's behaviour after a reset is its behaviour at all times". -/
def State.reset : State := ⟨[], []⟩

end Sys2Proof.Machine
end

