-- ==== Sys2Proof/Machine/Flags.lean ====
section
/-! DEFINITION. The block has no flags (R22). What stands in their place is the `status` field of a response and which
result fields the response drives (R68, R170). -/

namespace Sys2Proof.Machine

/-- The `status` field: 0 `OK`, 1 `OUT_OF_RANGE`, 2 `ILLEGAL_REQUEST`; 3 is never produced (R170). -/
def Response.status : Response → BitVec 2
  | .desc .. | .widen _ | .narrow _ | .crack .. | .eps _ => 0
  | .outOfRange => 1
  | .illegalRequest => 2

/-- The `value` port, where it is driven: by WIDEN (R68). -/
def Response.value : Response → Option Word
  | .widen v => some v
  | .desc .. | .narrow _ | .crack .. | .eps _ | .outOfRange | .illegalRequest => none

/-- The `pattern` port, where it is driven: by NARROW and EPS (R68). -/
def Response.pattern : Response → Option Word
  | .narrow p | .eps p => some p
  | .desc .. | .widen _ | .crack .. | .outOfRange | .illegalRequest => none

/-- The `sign`, `exponent` and `fraction` ports, where they are driven: by CRACK (R68). -/
def Response.fields : Response → Option (BitVec 1 × BitVec 11 × BitVec 52)
  | .crack s e f => some (s, e, f)
  | .desc .. | .widen _ | .narrow _ | .eps _ | .outOfRange | .illegalRequest => none

/-- The five descriptor ports, where they are driven: by DESC (R68). -/
def Response.descriptor : Response → Option (BitVec 7 × BitVec 1 × BitVec 4 × BitVec 6 × BitVec 10)
  | .desc t s e f b => some (t, s, e, f, b)
  | .widen _ | .narrow _ | .crack .. | .eps _ | .outOfRange | .illegalRequest => none

/-- The result fields that a response drives, each zero-extended to a word, in the order of R68: what a line of host
assembly binds to its destination (R74). -/
def Response.results : Response → List Word
  | .desc t s e f b => [t.setWidth 64, s.setWidth 64, e.setWidth 64, f.setWidth 64, b.setWidth 64]
  | .widen v => [v]
  | .narrow p => [p]
  | .crack s e f => [s.setWidth 64, e.setWidth 64, f.setWidth 64]
  | .eps p => [p]
  | .outOfRange | .illegalRequest => []

end Sys2Proof.Machine
end

