-- ==== Sys2Proof/Machine/Operands.lean ====
section
/-! DEFINITION. The two operand forms of a request and their range checks (R66, R67, R69). DESC and EPS take no operand
(R70). -/

namespace Sys2Proof.Machine

/-- `n < 64 and data[63:n] ≠ 0` (R67, R69). -/
def tooWide (n : Nat) (data : Word) : Bool := decide (n < 64) && decide (data >>> n ≠ 0#_)

/-- A pattern operand `p = data[T-1:0]`, or nothing where the range check fails (R66, R67). -/
def patternOperand (f : Format) (data : Word) : Option (BitVec f.totalBits) :=
  if tooWide f.totalBits data then none else some (data.setWidth f.totalBits)

/-- A value operand `v = data[W-1:0]`, or nothing where the range check fails (R66, R69). -/
def valueOperand (f : Format) (data : Word) : Option (BitVec f.carrierBits) :=
  if tooWide f.carrierBits data then none else some (data.setWidth f.carrierBits)

end Sys2Proof.Machine
end

