-- ==== Sys2Proof/Machine/Ops.lean ====
section
/-! DEFINITION. The shared operations: the fields of a pattern (R31), the codec in both directions (R90, R101 to R105), the
response of each family, and answering a request. The block takes no exception and returns from none (R176, R178): a
failure is one of the responses. -/

namespace Sys2Proof.Machine

/-- `p[T-1]` (R31). -/
def signField (f : Format) (p : BitVec f.totalBits) : BitVec 1 :=
  p.extractLsb' (f.exponentBits + f.fractionBits) 1

/-- `p[T-2:F]` (R31). -/
def exponentField (f : Format) (p : BitVec f.totalBits) : BitVec f.exponentBits :=
  p.extractLsb' f.fractionBits f.exponentBits

/-- `p[F-1:0]` (R31). -/
def fractionField (f : Format) (p : BitVec f.totalBits) : BitVec f.fractionBits :=
  p.extractLsb' 0 f.fractionBits

/-- `sign ++ exponent ++ fraction`, the inverse of cracking, by shifts and ORs (R30, R136). -/
def recombine (f : Format) (sign : BitVec 1) (exponent : BitVec f.exponentBits) (fraction : BitVec f.fractionBits) :
    BitVec f.totalBits :=
  sign.setWidth f.totalBits <<< (f.exponentBits + f.fractionBits) |||
    exponent.setWidth f.totalBits <<< f.fractionBits ||| fraction.setWidth f.totalBits

/-- Exponent all ones, fraction non-zero (R29, R102). Signalling and quiet NaNs are not told apart. -/
def isNaN (f : Format) (p : BitVec f.totalBits) : Bool :=
  exponentField f p == BitVec.allOnes _ && fractionField f p != 0#_

/-- Exponent all ones, fraction zero (R29). -/
def isInf (f : Format) (p : BitVec f.totalBits) : Bool :=
  exponentField f p == BitVec.allOnes _ && fractionField f p == 0#_

/-- Pattern to carrier bits: a left shift into the carrier's width for bf8 and bf16, the same bits for a native format,
whose `d` is 0 (R91 to R95). -/
def widen (f : Format) (p : BitVec f.totalBits) : BitVec f.carrierBits :=
  p.setWidth f.carrierBits <<< f.discardedBits

/-- "Take the top bits": `v[W-1:d]` (R101). -/
def topBits (f : Format) (v : BitVec f.carrierBits) : BitVec f.totalBits :=
  v.extractLsb' f.discardedBits f.totalBits

/-- The NaN branch: truncate, and force one fraction bit where the truncated fraction is zero (R103). -/
def narrowNaN (f : Format) (v : BitVec f.carrierBits) : BitVec f.totalBits :=
  let t := topBits f v
  if fractionField f t = 0#_ then t ||| (1 <<< f.nanForceBit) else t

/-- `(2^(d-1) - 1) + parity`, the parity being the LSB of the truncated result before rounding (R104). -/
def roundingBias (f : Format) (v : BitVec f.carrierBits) : BitVec f.carrierBits :=
  BitVec.ofNat _ (2 ^ (f.discardedBits - 1) - 1) + (v.extractLsb' f.discardedBits 1).setWidth _

/-- The rounding branch: one addition on exactly `W` bits, then the top bits (R104, R105). -/
def narrowRound (f : Format) (v : BitVec f.carrierBits) : BitVec f.totalBits :=
  topBits f (v + roundingBias f v)

/-- Carrier bits to pattern. The NaN test is made on the operand before any addition (R101, R102, R115, R193); a native
format keeps its bits, with no test and no rounding (R108). -/
def narrow (f : Format) (v : BitVec f.carrierBits) : BitVec f.totalBits :=
  if f.isNarrow then
    if isNaN f.carrier v then narrowNaN f v else narrowRound f v
  else v.setWidth f.totalBits

/-- DESC: the row of the format table (R80). -/
def descResponse (f : Format) : Response :=
  .desc (BitVec.ofNat 7 f.totalBits) (BitVec.ofNat 1 f.signBits) (BitVec.ofNat 4 f.exponentBits)
    (BitVec.ofNat 6 f.fractionBits) (BitVec.ofNat 10 f.bias)

/-- WIDEN (R90). -/
def widenResponse (f : Format) (data : Word) : Response :=
  match patternOperand f data with
  | none => .outOfRange
  | some p => .widen ((widen f p).setWidth 64)

/-- NARROW (R100). -/
def narrowResponse (f : Format) (data : Word) : Response :=
  match valueOperand f data with
  | none => .outOfRange
  | some v => .narrow ((narrow f v).setWidth 64)

/-- CRACK (R130). -/
def crackResponse (f : Format) (data : Word) : Response :=
  match patternOperand f data with
  | none => .outOfRange
  | some p => .crack (signField f p) ((exponentField f p).setWidth 11) ((fractionField f p).setWidth 52)

/-- EPS: the literal (R120). -/
def epsResponse (f : Format) : Response := .eps f.epsilon

/-- The block gives a response: it goes behind the earlier ones, which it never changes (R37, R51). Nothing else changes:
there is nothing else (R20). -/
def State.answer (s : State) (r : Response) : State := { s with responses := s.responses ++ [r] }

/-- A host issues a request: it goes behind those still unanswered (R51). -/
def State.issue (s : State) (r : Request) : State := { s with requests := s.requests ++ [r] }

end Sys2Proof.Machine
end

