-- ==== Sys2Proof/Machine/Crack.lean ====
section
/-! DEFINITION. CRACK, the field cracker (R130 to R135). One meaning per instruction, over the shared operation of the family. -/

namespace Sys2Proof.Machine

/-- CRACK.bf8 (R131). -/
def execCrackBf8 (data : Word) (s : State) : Host.Outcome State Fault Refusal :=
  .next (s.answer (crackResponse .bf8 data))

/-- CRACK.bf16 (R132). -/
def execCrackBf16 (data : Word) (s : State) : Host.Outcome State Fault Refusal :=
  .next (s.answer (crackResponse .bf16 data))

/-- CRACK.fp16 (R133). -/
def execCrackFp16 (data : Word) (s : State) : Host.Outcome State Fault Refusal :=
  .next (s.answer (crackResponse .fp16 data))

/-- CRACK.fp32 (R134). -/
def execCrackFp32 (data : Word) (s : State) : Host.Outcome State Fault Refusal :=
  .next (s.answer (crackResponse .fp32 data))

/-- CRACK.fp64 (R135). -/
def execCrackFp64 (data : Word) (s : State) : Host.Outcome State Fault Refusal :=
  .next (s.answer (crackResponse .fp64 data))

end Sys2Proof.Machine
end

