-- ==== Sys2Proof/Machine/Descriptor.lean ====
section
/-! DEFINITION. DESC, the format descriptor lookup (R80 to R85). One meaning per instruction, over the shared operation of the family. -/

namespace Sys2Proof.Machine

/-- DESC.bf8 (R81). `data` is ignored (R70). -/
def execDescBf8 (_data : Word) (s : State) : Host.Outcome State Fault Refusal :=
  .next (s.answer (descResponse .bf8))

/-- DESC.bf16 (R82). `data` is ignored (R70). -/
def execDescBf16 (_data : Word) (s : State) : Host.Outcome State Fault Refusal :=
  .next (s.answer (descResponse .bf16))

/-- DESC.fp16 (R83). `data` is ignored (R70). -/
def execDescFp16 (_data : Word) (s : State) : Host.Outcome State Fault Refusal :=
  .next (s.answer (descResponse .fp16))

/-- DESC.fp32 (R84). `data` is ignored (R70). -/
def execDescFp32 (_data : Word) (s : State) : Host.Outcome State Fault Refusal :=
  .next (s.answer (descResponse .fp32))

/-- DESC.fp64 (R85). `data` is ignored (R70). -/
def execDescFp64 (_data : Word) (s : State) : Host.Outcome State Fault Refusal :=
  .next (s.answer (descResponse .fp64))

end Sys2Proof.Machine
end

