-- ==== Sys2Proof/Machine/Epsilon.lean ====
section
/-! DEFINITION. EPS, the machine-epsilon pattern constants (R120 to R125). One meaning per instruction, over the shared operation of the family. -/

namespace Sys2Proof.Machine

/-- EPS.bf8 (R121). `data` is ignored (R70). -/
def execEpsBf8 (_data : Word) (s : State) : Host.Outcome State Fault Refusal :=
  .next (s.answer (epsResponse .bf8))

/-- EPS.bf16 (R122). `data` is ignored (R70). -/
def execEpsBf16 (_data : Word) (s : State) : Host.Outcome State Fault Refusal :=
  .next (s.answer (epsResponse .bf16))

/-- EPS.fp16 (R123). `data` is ignored (R70). -/
def execEpsFp16 (_data : Word) (s : State) : Host.Outcome State Fault Refusal :=
  .next (s.answer (epsResponse .fp16))

/-- EPS.fp32 (R124). `data` is ignored (R70). -/
def execEpsFp32 (_data : Word) (s : State) : Host.Outcome State Fault Refusal :=
  .next (s.answer (epsResponse .fp32))

/-- EPS.fp64 (R125). `data` is ignored (R70). -/
def execEpsFp64 (_data : Word) (s : State) : Host.Outcome State Fault Refusal :=
  .next (s.answer (epsResponse .fp64))

end Sys2Proof.Machine
end

