-- ==== Sys2Proof/Machine/Narrow.lean ====
section
/-! DEFINITION. NARROW, value to bit pattern (R100 to R110). One meaning per instruction, over the shared operation of the family. -/

namespace Sys2Proof.Machine

/-- NARROW.bf8 (R106). -/
def execNarrowBf8 (data : Word) (s : State) : Host.Outcome State Fault Refusal :=
  .next (s.answer (narrowResponse .bf8 data))

/-- NARROW.bf16 (R107). -/
def execNarrowBf16 (data : Word) (s : State) : Host.Outcome State Fault Refusal :=
  .next (s.answer (narrowResponse .bf16 data))

/-- NARROW.fp16 (R108). -/
def execNarrowFp16 (data : Word) (s : State) : Host.Outcome State Fault Refusal :=
  .next (s.answer (narrowResponse .fp16 data))

/-- NARROW.fp32 (R109). -/
def execNarrowFp32 (data : Word) (s : State) : Host.Outcome State Fault Refusal :=
  .next (s.answer (narrowResponse .fp32 data))

/-- NARROW.fp64 (R110). -/
def execNarrowFp64 (data : Word) (s : State) : Host.Outcome State Fault Refusal :=
  .next (s.answer (narrowResponse .fp64 data))

end Sys2Proof.Machine
end

