-- ==== Sys2Proof/Machine/Widen.lean ====
section
/-! DEFINITION. WIDEN, bit pattern to value (R90 to R95). One meaning per instruction, over the shared operation of the family. -/

namespace Sys2Proof.Machine

/-- WIDEN.bf8 (R91). -/
def execWidenBf8 (data : Word) (s : State) : Host.Outcome State Fault Refusal :=
  .next (s.answer (widenResponse .bf8 data))

/-- WIDEN.bf16 (R92). -/
def execWidenBf16 (data : Word) (s : State) : Host.Outcome State Fault Refusal :=
  .next (s.answer (widenResponse .bf16 data))

/-- WIDEN.fp16 (R93). -/
def execWidenFp16 (data : Word) (s : State) : Host.Outcome State Fault Refusal :=
  .next (s.answer (widenResponse .fp16 data))

/-- WIDEN.fp32 (R94). -/
def execWidenFp32 (data : Word) (s : State) : Host.Outcome State Fault Refusal :=
  .next (s.answer (widenResponse .fp32 data))

/-- WIDEN.fp64 (R95). -/
def execWidenFp64 (data : Word) (s : State) : Host.Outcome State Fault Refusal :=
  .next (s.answer (widenResponse .fp64 data))

end Sys2Proof.Machine
end

