-- ==== Sys2Proof/Machine/Dispatch.lean ====
section
/-! DEFINITION. One arm per instruction: the meaning it calls. -/

namespace Sys2Proof.Machine

def exec (i : Instr) (s : State) : Host.Outcome State Fault Refusal :=
  match i with
  | .descBf8 data => Sys2Proof.Machine.execDescBf8 data s
  | .descBf16 data => Sys2Proof.Machine.execDescBf16 data s
  | .descFp16 data => Sys2Proof.Machine.execDescFp16 data s
  | .descFp32 data => Sys2Proof.Machine.execDescFp32 data s
  | .descFp64 data => Sys2Proof.Machine.execDescFp64 data s
  | .widenBf8 data => Sys2Proof.Machine.execWidenBf8 data s
  | .widenBf16 data => Sys2Proof.Machine.execWidenBf16 data s
  | .widenFp16 data => Sys2Proof.Machine.execWidenFp16 data s
  | .widenFp32 data => Sys2Proof.Machine.execWidenFp32 data s
  | .widenFp64 data => Sys2Proof.Machine.execWidenFp64 data s
  | .narrowBf8 data => Sys2Proof.Machine.execNarrowBf8 data s
  | .narrowBf16 data => Sys2Proof.Machine.execNarrowBf16 data s
  | .narrowFp16 data => Sys2Proof.Machine.execNarrowFp16 data s
  | .narrowFp32 data => Sys2Proof.Machine.execNarrowFp32 data s
  | .narrowFp64 data => Sys2Proof.Machine.execNarrowFp64 data s
  | .crackBf8 data => Sys2Proof.Machine.execCrackBf8 data s
  | .crackBf16 data => Sys2Proof.Machine.execCrackBf16 data s
  | .crackFp16 data => Sys2Proof.Machine.execCrackFp16 data s
  | .crackFp32 data => Sys2Proof.Machine.execCrackFp32 data s
  | .crackFp64 data => Sys2Proof.Machine.execCrackFp64 data s
  | .epsBf8 data => Sys2Proof.Machine.execEpsBf8 data s
  | .epsBf16 data => Sys2Proof.Machine.execEpsBf16 data s
  | .epsFp16 data => Sys2Proof.Machine.execEpsFp16 data s
  | .epsFp32 data => Sys2Proof.Machine.execEpsFp32 data s
  | .epsFp64 data => Sys2Proof.Machine.execEpsFp64 data s

end Sys2Proof.Machine
end

