-- ==== Sys2Proof/Machine/Step.lean ====
section
/-! DEFINITION. One step: take the oldest request whole, decode it and answer it (R10, R43, R72). -/

namespace Sys2Proof.Machine

/-- One step per request (R10). With no request there is nothing to do (log 4). An illegal command is answered
`ILLEGAL_REQUEST` whatever its operand holds (R72, R172). -/
def step (s : State) : Host.Outcome State Fault Refusal :=
  match s.requests with
  | [] => .next s
  | r :: rest =>
    match decode r with
    | .ok i => exec i { s with requests := rest }
    | .error _ => .next (State.answer { s with requests := rest } .illegalRequest)

/-- The request of an opcode-table word, placed where the next step takes its request (log 5). -/
def State.withFetchWord (s : State) (nbits w : Nat) : State :=
  { s with requests := tableRequest nbits w :: s.requests }

end Sys2Proof.Machine
end

