-- ==== Sys2Proof/Machine/Sequences.lean ====
section
/-! DEFINITION. The host's request sequences (R150 to R152), each request answered by the machine itself, and the assembly
lines they are written in (R74, R75). -/

namespace Sys2Proof.Machine

/-- The response to one request made alone, read off one step of the machine. The second and third alternatives and the
default of `headD` are never taken (log 20). -/
def ask (r : Request) : Response :=
  match step { State.reset with requests := [r] } with
  | .next t => t.responses.headD .illegalRequest
  | .fault e => nomatch e
  | .refused _ => .illegalRequest

/-- The two failures of the host, which "must stay distinguishable" (R149, R173). -/
inductive HostFailure where
  /-- The string is no number under any of the three parsing rules. -/
  | malformedLiteral
  /-- The literal is an integer that does not fit the format. -/
  | outOfRange
deriving DecidableEq, Repr

/-- What a sequence yields (R140): BitPattern, DecodedValue as carrier bits, DecodedFields. -/
structure Decoded where
  pattern : Word
  value : Word
  sign : BitVec 1
  exponent : BitVec 11
  fraction : BitVec 52
deriving DecidableEq, Repr

/-- `DECODE.fmt p` (R150): WIDEN, then CRACK of the same pattern; a failure stops the sequence (R176). -/
def decodeSequence (f : Format) (p : Word) : Except HostFailure Decoded :=
  match ask (requestOf .widen f p) with
  | .widen v =>
    match ask (requestOf .crack f p) with
    | .crack s e m => .ok ⟨p, v, s, e, m⟩
    | _ => .error .outOfRange
  | _ => .error .outOfRange

/-- `ENCODE.fmt x` (R151): NARROW, then DECODE of the pattern it gave. -/
def encodeSequence (f : Format) (x : Word) : Except HostFailure Decoded :=
  match ask (requestOf .narrow f x) with
  | .narrow p => decodeSequence f p
  | _ => .error .outOfRange

/-- `EPSILON.fmt` (R152): EPS, then DECODE of the pattern it gave. -/
def epsilonSequence (f : Format) : Except HostFailure Decoded :=
  match ask (requestOf .eps f 0) with
  | .eps p => decodeSequence f p
  | _ => .error .outOfRange

/-- `<src>` of an assembly line: a number or a host variable `h<n>` (R74). -/
inductive Source where
  | literal (data : Word)
  | var (n : Nat)
deriving DecidableEq, Repr

/-- An assembly line `[<dst> =] <OP>.<fmt> [<src>]` (R74). -/
structure Line where
  dst : List Nat
  op : Op
  fmt : Format
  src : Option Source
deriving DecidableEq, Repr

/-- The host's variables, the latest binding of a variable first (R15). -/
abbrev Vars := List (Nat × Word)

/-- How a run of lines ends. -/
inductive RunEnd where
  /-- Every response was `OK`. -/
  | finished (vars : Vars)
  /-- A response was a failure: the host stopped at this line, and reports the failure with the operand sent, the number
  that the line's source denotes, and the format, which is the line's (R74, R171, R176). -/
  | failed (vars : Vars) (line : Line) (data : Word) (response : Response)
  /-- A line reads a host variable that no earlier line set (log 21). -/
  | unset (vars : Vars) (n : Nat)
deriving DecidableEq, Repr

/-- What a source denotes: its number, or what the variable holds (R74), and the variable's number where it is unset
(log 21). -/
def Source.value (vars : Vars) : Source → Except Nat Word
  | .literal w => .ok w
  | .var n =>
    match vars.lookup n with
    | some w => .ok w
    | none => .error n

/-- The operand of a line: its source, and `data = 0` where `<src>` is omitted. R74 says the latter, and that it is omitted,
for DESC and EPS only. DESIGN CHOICE (log 23): a WIDEN, NARROW or CRACK line without a source sends 0 too, and a DESC or EPS
line with a source sends it, and ends as `unset` if that is a variable not set. -/
def Line.operand (l : Line) (vars : Vars) : Except Nat Word :=
  match l.src with
  | none => .ok 0
  | some source => source.value vars

/-- Lines run in order, each waiting for its response (R52); the host stops at the first failure (R74, R176). The result
fields go to the variables of `<dst>` in the order of R68. DESIGN CHOICE (log 23): where `<dst>` is not as long as the
response's fields, the variables and fields beyond the shorter of the two are left out; a variable that one `<dst>` names
twice holds the earlier field. -/
def runLines : List Line → Vars → RunEnd
  | [], vars => .finished vars
  | l :: rest, vars =>
    match l.operand vars with
    | .error n => .unset vars n
    | .ok data =>
      let response := ask (requestOf l.op l.fmt data)
      if response.status = 0 then runLines rest (l.dst.zip response.results ++ vars)
      else .failed vars l data response

/-- `(v, s, e, f) = DECODE.fmt src` (R75). -/
def decodeLines (fmt : Format) (src : Source) (v s e f : Nat) : List Line :=
  [⟨[v], .widen, fmt, some src⟩, ⟨[s, e, f], .crack, fmt, some src⟩]

/-- `(p, v, s, e, f) = ENCODE.fmt src` (R75). -/
def encodeLines (fmt : Format) (src : Source) (p v s e f : Nat) : List Line :=
  ⟨[p], .narrow, fmt, some src⟩ :: decodeLines fmt (.var p) v s e f

/-- `(p, v, s, e, f) = EPSILON.fmt` (R75). -/
def epsilonLines (fmt : Format) (p v s e f : Nat) : List Line :=
  ⟨[p], .eps, fmt, none⟩ :: decodeLines fmt (.var p) v s e f

end Sys2Proof.Machine
end

