-- ==== Sys2Proof/Machine/Value.lean ====
section
/-! DEFINITION. What the bits of a pattern mean (R17, R28), and the pattern of a value. No operation of the block computes
either: they state laws, and the host uses the second. -/

namespace Sys2Proof.Machine

/-- The value of a finite pattern without its sign: the normal, subnormal and zero lines of R28, with the constants of the
format table. PRESUMED: the formula is from general knowledge (G1, log 16). -/
def magnitude (f : Format) (p : BitVec f.totalBits) : ℚ :=
  let e := (exponentField f p).toNat
  let m : ℚ := (fractionField f p).toNat
  if e = 0 then 2 ^ (1 - (f.bias : ℤ)) * (m / 2 ^ f.fractionBits)
  else 2 ^ ((e : ℤ) - f.bias) * (1 + m / 2 ^ f.fractionBits)

/-- `RealValue(fmt, p)` (R28). -/
def realValue (f : Format) (p : BitVec f.totalBits) : Val :=
  if isNaN f p then .nan
  else if isInf f p then .inf (signField f p == 1)
  else .finite (signField f p == 1) (magnitude f p)

/-- The sign field of a value. -/
def signOf (negative : Bool) : BitVec 1 := BitVec.ofBool negative

/-- The pattern that a finite magnitude has if its exponent field is `e`: the scaled magnitude without its hidden bit. -/
def candidate (f : Format) (negative : Bool) (m : ℚ) (e : Nat) : BitVec f.totalBits :=
  let scaled : ℚ := m * 2 ^ ((f.fractionBits : ℤ) + f.bias - max e 1)
  recombine f (signOf negative) (BitVec.ofNat _ e) (BitVec.ofNat _ (scaled.num / scaled.den).toNat)

/-- The pattern of `f` that denotes exactly `v`, where there is one (R146: "the pattern is determined"). A NaN has none
of its own. -/
def exactPattern (f : Format) : Val → Option (BitVec f.totalBits)
  | .nan => none
  | .inf negative => some (recombine f (signOf negative) (BitVec.allOnes _) 0)
  | .finite negative m =>
    (List.range (2 ^ f.exponentBits - 1)).findSome? fun e =>
      let p := candidate f negative m e
      if realValue f p = .finite negative m then some p else none

end Sys2Proof.Machine
end

