-- ==== Sys2Proof/Machine/LiteralParser.lean ====
section
/-! DEFINITION. The host's literal parser (R141 to R149, R154). Where the spec leaves a string function open, an opaque
constant of Config stands. -/

namespace Sys2Proof.Machine

/-- "strip all `_` characters (digit-group separators) before any other processing" (R141). -/
def normalise (s : Text) : Text := s.filter (· ≠ '_')

/-- Lower case, for the case-insensitive matches (R142, R143). -/
def lower (s : Text) : Text := s.map Char.toLower

/-- Dispatch rule 1 (R142): leading whitespace, then `epsilon` in any case. Whether text after the word still matches is
open; the opaque test gets that text as it is written, case and all, after the underscores have gone (log 14). -/
def isEpsilon (s : Text) : Bool :=
  let t := s.dropWhile Char.isWhitespace
  if lower (t.take 7) = ['e', 'p', 's', 'i', 'l', 'o', 'n'] then (t.drop 7).isEmpty || Config.epsilonTail (t.drop 7)
  else false

/-- Dispatch rule 2 (R143): the string contains a radix point or the letter `n` or `N`. -/
def isValueLiteral (s : Text) : Bool := s.any fun c => c == '.' || c == 'n' || c == 'N'

/-- The value of a digit below `base`, hexadecimal digits in either case. -/
def digitValue (base : Nat) (c : Char) : Option Nat :=
  let d :=
    if '0' ≤ c ∧ c ≤ '9' then some (c.toNat - '0'.toNat)
    else if 'a' ≤ c.toLower ∧ c.toLower ≤ 'f' then some (c.toLower.toNat - 'a'.toNat + 10)
    else none
  d.filter (· < base)

/-- The number that a non-empty string of digits denotes, most significant digit first. -/
def digitsValue (base : Nat) (s : Text) : Option Nat :=
  if s.isEmpty then none else s.foldlM (fun acc c => (digitValue base c).map (base * acc + ·)) 0

/-- An optional sign: whether it is `-`, and the text after it. -/
def splitSign : Text → Bool × Text
  | '-' :: t => (true, t)
  | '+' :: t => (false, t)
  | t => (false, t)

/-- The prefix `[+-]?0x`, in either case (R144). -/
def hasHexPrefix (s : Text) : Bool := ['0', 'x'].isPrefixOf (lower (splitSign s).2)

/-- The binary exponent of a hex-float literal: nothing, or `p`, an optional sign and decimal digits (R144, log 15). -/
def binaryExponent : Text → Option Int
  | [] => some 0
  | _ :: t =>
    let (negative, ds) := splitSign t
    (digitsValue 10 ds).map fun n => if negative then -(n : Int) else n

/-- A hexadecimal floating literal (R144; the grammar is PRESUMED, G2, log 15): the significand's digits, with an optional
radix point among them, times two to the exponent. -/
def parseHexFloat (s : Text) : Option Val :=
  let (negative, t) := splitSign s
  let isP : Char → Bool := fun c => c.toLower == 'p'
  let significand := (t.drop 2).takeWhile (!isP ·)
  let whole := significand.takeWhile (· ≠ '.')
  let part := (significand.dropWhile (· ≠ '.')).drop 1
  match digitsValue 16 (whole ++ part), binaryExponent ((t.drop 2).dropWhile (!isP ·)) with
  | some m, some e => some (.finite negative (m * 2 ^ (e - 4 * part.length)))
  | _, _ => none

/-- Decimal literals that R154 says are malformed: two radix points (`1.2.3`), a binary prefix (`0b1n`). -/
def isMalformedDecimal (s : Text) : Bool := decide (2 ≤ s.count '.') || ['0', 'b'].isPrefixOf (lower s)

/-- A decimal floating literal (R145): the tokens `inf`, `infinity` and `nan` in any case and `3.0` are settled, and so is
what R154 calls malformed; the rest is open (log 12). -/
def parseDecimal (s : Text) : Option Val :=
  let t := lower s
  if t = ['i', 'n', 'f'] ∨ t = ['i', 'n', 'f', 'i', 'n', 'i', 't', 'y'] then some (.inf false)
  else if t = ['n', 'a', 'n'] then some .nan
  else if s = ['3', '.', '0'] then some (.finite false 3)
  else if isMalformedDecimal s then none
  else Config.parseDecimal s

/-- The two kinds of value literal (R144, R145). -/
def parseValue (s : Text) : Option Val := if hasHexPrefix s then parseHexFloat s else parseDecimal s

/-- An integer literal without its sign, where the spec settles it (R147): a `0x` or `0b` prefix, a digit string with no
leading zero, or `0`. The outer option is empty where the spec does not settle the string (C8, log 13), the inner one
where the string is malformed. -/
def settledNat : Text → Option (Option Nat)
  | [] => some none
  | ['0'] => some (some 0)
  | '0' :: c :: ds =>
    if c.toLower == 'x' then some (digitsValue 16 ds)
    else if c.toLower == 'b' then some (digitsValue 2 ds)
    else none
  | c :: ds =>
    if c == '+' then none
    else some (digitsValue 10 (c :: ds))

/-- Dispatch rule 3 (R147): an integer bit pattern in base 0, possibly negative. -/
def parseInteger (s : Text) : Option Int :=
  let (negative, body) :=
    match s with
    | '-' :: t => (true, t)
    | t => (false, t)
  if s.any Char.isWhitespace then Config.parseInt0 s
  else
    match settledNat body with
    | some n => n.map fun n => if negative then -(n : Int) else n
    | none => Config.parseInt0 s

/-- A NaN pattern of the format, by choice of its sign and fraction: a zero fraction would be an infinity and stands for
fraction 1, so the choices give exactly the NaN patterns (R146, U8, log 10). -/
def nanPattern (f : Format) (negative : Bool) (fraction : Word) : BitVec f.totalBits :=
  let m := fraction.setWidth f.fractionBits
  recombine f (signOf negative) (BitVec.allOnes _) (if m = 0 then 1 else m)

/-- `HostToCarrier(fmt, literal)` (R146, D17): determined where the literal's value is exactly representable in the carrier,
open elsewhere (log 9). -/
def hostToCarrier (f : Format) (literal : Text) (v : Val) : BitVec f.carrierBits :=
  match v with
  | .nan => nanPattern f.carrier (Config.hostNaN f literal).1 (Config.hostNaN f literal).2
  | _ =>
    match exactPattern f.carrier v with
    | some p => p
    | none => (Config.hostToCarrier f literal).setWidth f.carrierBits

/-- The Literal Parser (R140 to R149): the three dispatch rules in their order, each with its request sequence. An integer
that cannot be put on the 64-bit port is `OutOfRange` without a request (R147). -/
def parse (f : Format) (literal : Text) : Except HostFailure Decoded :=
  let s := normalise literal
  if isEpsilon s then epsilonSequence f
  else if isValueLiteral s then
    match parseValue s with
    | none => .error .malformedLiteral
    | some v => encodeSequence f ((hostToCarrier f s v).setWidth 64)
  else
    match parseInteger s with
    | none => .error .malformedLiteral
    | some z => if z < 0 ∨ 2 ^ 64 ≤ z then .error .outOfRange else decodeSequence f (BitVec.ofInt 64 z)

end Sys2Proof.Machine
end

