-- ==== Sys2Proof/Machine/Presentation.lean ====
section
/-! DEFINITION. The host's presentation strings (R155 to R159), the report of a conversion (R140), and the written forms
of requests and assembly lines (R74). -/

namespace Sys2Proof.Machine

/-- `n` binary digits, most significant first. -/
def binaryDigits (n x : Nat) : Text := (List.range n).reverse.map fun i => if x.testBit i then '1' else '0'

/-- Sign digit, space, exponent bits, space, fraction bits, each padded to its field's width (R155). -/
def binaryString (f : Format) (sign : BitVec 1) (exponent : BitVec 11) (fraction : BitVec 52) : Text :=
  binaryDigits 1 sign.toNat ++ ' ' :: binaryDigits f.exponentBits exponent.toNat ++
    ' ' :: binaryDigits f.fractionBits fraction.toNat

/-- A natural number in decimal. -/
def decimal (n : Nat) : Text := Nat.toDigits 10 n

/-- An integer in decimal. -/
def decimalInt (z : Int) : Text := if z < 0 then '-' :: decimal z.natAbs else decimal z.natAbs

/-- `"<raw> - <bias> = <unbiased>"` with `unbiased = raw - B` as a signed integer (R158); the base is a DESIGN CHOICE
(log 18). -/
def exponentString (f : Format) (exponent : BitVec 11) : Text :=
  decimal exponent.toNat ++ [' ', '-', ' '] ++ decimal f.bias ++ [' ', '=', ' '] ++
    decimalInt ((exponent.toNat : Int) - f.bias)

/-- Uppercase hexadecimal digits. -/
def hexDigits (n : Nat) : Text := (Nat.toDigits 16 n).map Char.toUpper

/-- Uppercase hexadecimal digits, zero-padded to at least `width`. -/
def hexPadded (width n : Nat) : Text := List.replicate (width - (hexDigits n).length) '0' ++ hexDigits n

/-- Uppercase hexadecimal with a `0x` prefix (R159); whether it is padded is open (log 18). -/
def fractionString (f : Format) (fraction : BitVec 52) : Text :=
  '0' :: 'x' :: hexPadded (if Config.fractionPadded f then (f.fractionBits + 3) / 4 else 1) fraction.toNat

/-- The field-layout key diagram (R156); its text is open (log 17). -/
def keyDiagram (f : Format) : Text := Config.keyTemplate f

/-- `run` followed by `p` becomes `p`, at its first place in the text; nothing where it has none. -/
def collapse (run : Text) : Text → Option Text
  | [] => none
  | c :: cs =>
    if (run ++ ['p']).isPrefixOf (c :: cs) then some ((c :: cs).drop run.length)
    else (collapse run cs).map (c :: ·)

/-- How many zeros the strip rule takes away, where the spec gives a strip rule (R157, C5). -/
def strippedZeros : Format → Option Nat
  | .bf16 => some 11
  | .bf8 | .fp16 => some 10
  | .fp32 | .fp64 => none

/-- The strip rule on the formatter's output (R157); the rule for fp32 and fp64 and the case without the zeros are open
(log 17). -/
def stripHexFloat (f : Format) (formatted : Text) : Text :=
  match strippedZeros f with
  | some n => (collapse (List.replicate n '0') formatted).getD (Config.hexFloatOther f formatted)
  | none => Config.hexFloatOther f formatted

/-- The hex-float literal of a value (R157): the formatter's output on the carrier bits, then the strip rule. The formatter is
open (log 17). -/
def hexFloatString (f : Format) (value : Word) : Text := stripHexFloat f (Config.hexFloatFormat f.carrier value)

/-- What the core hands the report renderer on success (R140). -/
structure Report where
  decoded : Decoded
  binary : Text
  key : Text
  hexFloat : Text
  exponentText : Text
  fractionText : Text
deriving DecidableEq, Repr

/-- The strings of R155 to R159 for a decoded pattern. -/
def report (f : Format) (d : Decoded) : Report where
  decoded := d
  binary := binaryString f d.sign d.exponent d.fraction
  key := keyDiagram f
  hexFloat := hexFloatString f d.value
  exponentText := exponentString f d.exponent
  fractionText := fractionString f d.fraction

/-- What the host reports on failure: the kind, with the offending literal as it was given and the selected format (R140,
R161, R176). -/
structure FailureReport where
  kind : HostFailure
  literal : Text
  format : Format
deriving DecidableEq, Repr

/-- The core-facing contract (R140): a format and a literal give a report, or a failure reported with both and none of the
success outputs (R176). -/
def convert (f : Format) (literal : Text) : Except FailureReport Report :=
  match parse f literal with
  | .ok d => .ok (report f d)
  | .error kind => .error ⟨kind, literal, f⟩

/-- The operation's name (R74). -/
def opName : Op → Text
  | .desc => ['D', 'E', 'S', 'C']
  | .widen => ['W', 'I', 'D', 'E', 'N']
  | .narrow => ['N', 'A', 'R', 'R', 'O', 'W']
  | .crack => ['C', 'R', 'A', 'C', 'K']
  | .eps => ['E', 'P', 'S']

/-- The format's name (R74). -/
def formatName : Format → Text
  | .bf8 => ['b', 'f', '8']
  | .bf16 => ['b', 'f', '1', '6']
  | .fp16 => ['f', 'p', '1', '6']
  | .fp32 => ['f', 'p', '3', '2']
  | .fp64 => ['f', 'p', '6', '4']

/-- The mnemonic `OP.fmt` (R64). -/
def mnemonic (op : Op) (f : Format) : Text := opName op ++ '.' :: formatName f

/-- The written encoding `cmd:data`, two and sixteen hexadecimal digits (R74). -/
def written (r : Request) : Text := hexPadded 2 r.cmd.toNat ++ ':' :: hexPadded 16 r.data.toNat

/-- A host variable's name `h<n>` (R15). -/
def variableName (n : Nat) : Text := 'h' :: decimal n

/-- `<src>`: a hexadecimal number or a variable's name (R74). -/
def sourceText : Source → Text
  | .literal w => '0' :: 'x' :: hexDigits w.toNat
  | .var n => variableName n

/-- `<dst> =`: one variable, a tuple of several, or nothing (R74). -/
def destinationText : List Nat → Text
  | [] => []
  | [n] => variableName n ++ [' ', '=', ' ']
  | ns => '(' :: List.intercalate [',', ' '] (ns.map variableName) ++ [')', ' ', '=', ' ']

/-- An assembly line as text (R74). -/
def Line.text (l : Line) : Text :=
  destinationText l.dst ++ mnemonic l.op l.fmt ++
    match l.src with
    | none => []
    | some s => ' ' :: sourceText s

end Sys2Proof.Machine
end

