-- ==== Sys2Proof/WellFormed.lean ====
section
/-! DEFINITION. When the operand of an instruction lies in the operand's declared domain (R26, R27, R66). Every request
with a legal command is an instruction; an ill-formed one is still answered, with `OUT_OF_RANGE` (R67, R69). -/

namespace Sys2Proof

/-- How many low bits of `data` the operand may use: `T` for a pattern, `W` for a value, and all 64 where `data` is
ignored (R66, R70). -/
def Instr.operandBits (i : Instr) : Nat :=
  match i.op with
  | .desc | .eps => 64
  | .widen | .crack => i.format.totalBits
  | .narrow => i.format.carrierBits

/-- The operand fits: WIDEN and CRACK have a pattern of `T` bits, NARROW a value of `W` bits. -/
def Instr.wellFormed (i : Instr) : Bool := decide (i.data.toNat < 2 ^ i.operandBits)

end Sys2Proof
end

