-- ==== Sys2Proof/Safety.lean ====
section
/-! DEFINITION. What counts as a safe run, and the invariant of the outputs that every step keeps. -/

namespace Sys2Proof.Machine

/-- A successful run: all statuses are `OK` (R187). -/
def State.allOk (s : State) : Bool := s.responses.all fun r => r.status == 0

/-- What the response to an instruction can be: a success of the instruction's own operation, where the operand fits, or
`OUT_OF_RANGE`, where it does not. A descriptor is the format's row (R24); a widened value has `W` bits, of which the low `d`
are zero (R97); a narrowed pattern has `T` bits (R68); cracked fields have `E` and `F` bits (R68); an epsilon is the format's
literal (R120). -/
def Response.legalFor (i : Instr) : Response → Prop
  | .desc t s e m b =>
    i.op = .desc ∧ t.toNat = i.format.totalBits ∧ s.toNat = 1 ∧ e.toNat = i.format.exponentBits ∧
      m.toNat = i.format.fractionBits ∧ b.toNat = i.format.bias
  | .widen v =>
    i.op = .widen ∧ i.wellFormed = true ∧ v.toNat < 2 ^ i.format.carrierBits ∧ 2 ^ i.format.discardedBits ∣ v.toNat
  | .narrow p => i.op = .narrow ∧ i.wellFormed = true ∧ p.toNat < 2 ^ i.format.totalBits
  | .crack _ e m =>
    i.op = .crack ∧ i.wellFormed = true ∧ e.toNat < 2 ^ i.format.exponentBits ∧ m.toNat < 2 ^ i.format.fractionBits
  | .eps p => i.op = .eps ∧ p = i.format.epsilon
  | .outOfRange => i.wellFormed = false
  | .illegalRequest => False

/-- What the response to a request can be: legal for the instruction it decodes to, or `ILLEGAL_REQUEST` where it decodes to
none (R65, R172). -/
def Response.answers (r : Request) (response : Response) : Prop :=
  match decode r with
  | .ok i => response.legalFor i
  | .error _ => response = .illegalRequest

/-- The invariant of the outputs, over the requests `answered` so far, oldest first: there is one response for each, and it
is a legal one for that request. -/
def State.Inv (answered : List Request) (s : State) : Prop :=
  List.Forall₂ (fun request response => response.answers request) answered s.responses

end Sys2Proof.Machine
end

