-- ==== Sys2Proof/Certificates/Slice0/Obligations.lean ====
section
/-! DEFINITION. The statements for the provers: what the numbered rules of the spec say the block and its host do. -/

namespace Sys2Proof.Machine

/-- The request `cmd:data` is the instruction `mk data`, and that instruction completes from every state with the one
response given: the requests and the earlier responses stay as they are, and the block has nothing else to change. -/
def Answers (cmd : Command) (mk : Word → Instr) (data : Word) (r : Response) : Prop :=
  decode ⟨cmd, data⟩ = .ok (mk data) ∧
    ∀ s : State, exec (mk data) s = .next { requests := s.requests, responses := s.responses ++ [r] }

/-- The thresholds of R171: from which `data` on an instruction answers `OUT_OF_RANGE`, where it can. -/
def failureThreshold : Instr → Option Nat
  | .widenBf8 _ | .crackBf8 _ => some 0x100
  | .widenBf16 _ | .crackBf16 _ | .widenFp16 _ | .crackFp16 _ | .narrowBf8 _ | .narrowFp16 _ => some 0x10000
  | .widenFp32 _ | .crackFp32 _ | .narrowBf16 _ | .narrowFp32 _ => some 0x100000000
  | .widenFp64 _ | .crackFp64 _ | .narrowFp64 _ => none
  | .descBf8 _ | .descBf16 _ | .descFp16 _ | .descFp32 _ | .descFp64 _ => none
  | .epsBf8 _ | .epsBf16 _ | .epsFp16 _ | .epsFp32 _ | .epsFp64 _ => none

/-- `cmd = 00 ooo fff` with an operation and a format number below 5 (R65). -/
def LegalCommand (cmd : Command) : Prop :=
  cmd.extractLsb' 6 2 = 0#2 ∧ (cmd.extractLsb' 3 3).toNat < 5 ∧ (cmd.extractLsb' 0 3).toNat < 5

end Sys2Proof.Machine

open Sys2Proof Sys2Proof.Machine

/-! Encoding -/

/-- R64: the 25 commands of the opcode map, whatever `data` holds. -/
def Obligations.OpcodeMapNamesTwentyFiveCommands : Prop :=
  ∀ d : Word,
    (decode ⟨0x00, d⟩ = .ok (.descBf8 d) ∧ decode ⟨0x01, d⟩ = .ok (.descBf16 d) ∧
      decode ⟨0x02, d⟩ = .ok (.descFp16 d) ∧ decode ⟨0x03, d⟩ = .ok (.descFp32 d) ∧
      decode ⟨0x04, d⟩ = .ok (.descFp64 d)) ∧
    (decode ⟨0x08, d⟩ = .ok (.widenBf8 d) ∧ decode ⟨0x09, d⟩ = .ok (.widenBf16 d) ∧
      decode ⟨0x0A, d⟩ = .ok (.widenFp16 d) ∧ decode ⟨0x0B, d⟩ = .ok (.widenFp32 d) ∧
      decode ⟨0x0C, d⟩ = .ok (.widenFp64 d)) ∧
    (decode ⟨0x10, d⟩ = .ok (.narrowBf8 d) ∧ decode ⟨0x11, d⟩ = .ok (.narrowBf16 d) ∧
      decode ⟨0x12, d⟩ = .ok (.narrowFp16 d) ∧ decode ⟨0x13, d⟩ = .ok (.narrowFp32 d) ∧
      decode ⟨0x14, d⟩ = .ok (.narrowFp64 d)) ∧
    (decode ⟨0x18, d⟩ = .ok (.crackBf8 d) ∧ decode ⟨0x19, d⟩ = .ok (.crackBf16 d) ∧
      decode ⟨0x1A, d⟩ = .ok (.crackFp16 d) ∧ decode ⟨0x1B, d⟩ = .ok (.crackFp32 d) ∧
      decode ⟨0x1C, d⟩ = .ok (.crackFp64 d)) ∧
    (decode ⟨0x20, d⟩ = .ok (.epsBf8 d) ∧ decode ⟨0x21, d⟩ = .ok (.epsBf16 d) ∧
      decode ⟨0x22, d⟩ = .ok (.epsFp16 d) ∧ decode ⟨0x23, d⟩ = .ok (.epsFp32 d) ∧
      decode ⟨0x24, d⟩ = .ok (.epsFp64 d))

/-- R65, R172: 25 of the 256 commands are instructions; the others are answered `ILLEGAL_REQUEST`, with no result field,
whatever `data` holds, and no legal command is answered so. -/
def Obligations.IllegalCommandsAreAnsweredIllegalRequest : Prop :=
  ((List.range 256).filter fun n => (decode ⟨BitVec.ofNat 8 n, 0⟩).toOption.isSome).length = 25 ∧
  ∀ (cmd : Command) (data : Word),
    (LegalCommand cmd → ∃ i, decode ⟨cmd, data⟩ = .ok i) ∧
    (¬ LegalCommand cmd → ∃ e, decode ⟨cmd, data⟩ = .error e) ∧
    ∀ (s : State) (rest : List Request), s.requests = ⟨cmd, data⟩ :: rest →
      ∃ r : Response, step s = .next { requests := rest, responses := s.responses ++ [r] } ∧
        (r = .illegalRequest ↔ ¬ LegalCommand cmd) ∧ (r = .illegalRequest → r.status = 2 ∧ r.results = [])

/-- The encoder writes `8 * op + fmt` (R76) above the 64 bits of `data` (R60); decoding gives the instruction back, and a
request of 72 bits that decodes is the encoding of what it decodes to. R76 speaks of `cmd` alone: that no bit of `data` is
dropped for DESC and EPS either is the model's choice, their constructors keep the ignored operand (log 22). -/
def Obligations.EncodingRoundTripsBothWays : Prop :=
  (∀ i : Instr, (encodeBits i).toNat = (8 * i.op.number + i.format.number) * 2 ^ 64 + i.data.toNat) ∧
  (∀ i : Instr, decodeBits (encodeBits i) = .ok i) ∧
  ∀ (w : BitVec 72) (i : Instr), decodeBits w = .ok i → encodeBits i = w

/-- The model's own convention (log 5): an opcode-table word placed in a state is the very next request, and the next
step runs the instruction that the decoder reads from it, with the rest of the state as it was. -/
def Obligations.TableWordRunsNext : Prop :=
  ∀ (s : State) (nbits w : Nat) (i : Instr), decodeTableWord nbits w = some i →
    step (s.withFetchWord nbits w) = exec i s

/-! The step -/

/-- A step runs the instruction that the oldest request decodes to, on the state from which that request has been taken. -/
def Obligations.StepRunsDecodedInstruction : Prop :=
  ∀ (s : State) (r : Request) (rest : List Request) (i : Instr), s.requests = r :: rest → decode r = .ok i →
    step s = exec i { requests := rest, responses := s.responses }

/-- The model's own convention (log 4): with no request the step changes nothing. -/
def Obligations.StepWithoutRequestIdles : Prop :=
  ∀ s : State, s.requests = [] → step s = .next s

/-- R11: a step is a pure function of its request. The response is the one the request gets when it is made alone: it does
not depend on earlier requests, on later ones or on earlier responses. -/
def Obligations.ResponseDependsOnRequestAlone : Prop :=
  ∀ (s : State) (r : Request) (rest : List Request), s.requests = r :: rest →
    step s = .next { requests := rest, responses := s.responses ++ [ask r] }

/-- R194: every request is answered; a run never stops. After `k` steps the oldest `k` requests have been answered, in their
order (R51, log 7), each as it would be alone, and the others are still there. For `k` beyond the pending requests it rests on
the model's idle step (log 4). -/
def Obligations.RunAnswersRequestsInOrder : Prop :=
  ∀ (k : Nat) (s : State),
    Sys2Proof.core.run k s =
      .next { requests := s.requests.drop k, responses := s.responses ++ (s.requests.take k).map ask }

/-- R51: one response per request, and each host, named here by a number, gets the responses to its own requests in its
order of issue, however the hosts' requests are interleaved. -/
def Obligations.EachHostGetsItsResponsesInOrder : Prop :=
  ∀ issued : List (Nat × Request), ∃ responses : List Response,
    Sys2Proof.core.run issued.length { requests := issued.map Prod.snd, responses := [] } =
        .next { requests := [], responses := responses } ∧
      responses.length = issued.length ∧
      ∀ host : Nat,
        (((issued.map Prod.fst).zip responses).filter fun x => x.1 == host).map Prod.snd =
          ((issued.filter fun x => x.1 == host).map fun x => ask x.2)

/-- R46: reordering the requests, in any way, gives each request the response it would have got. -/
def Obligations.ReorderingKeepsEachResponse : Prop :=
  ∀ issued reordered : List Request, issued.Perm reordered → ∃ given given' : List Response,
    Sys2Proof.core.run issued.length { requests := issued, responses := [] } =
        .next { requests := [], responses := given } ∧
      Sys2Proof.core.run reordered.length { requests := reordered, responses := [] } =
        .next { requests := [], responses := given' } ∧
      (issued.zip given).Perm (reordered.zip given')

/-- R37: a response, once given, is never changed; a step adds at most one, and takes at most the oldest request. -/
def Obligations.StepNeverChangesGivenResponses : Prop :=
  ∀ s t : State, step s = .next t →
    (∃ added : List Response, t.responses = s.responses ++ added ∧ added.length = min 1 s.requests.length) ∧
      t.requests = s.requests.drop 1

/-- The invariant of the outputs (`State.Inv`): for each request answered so far there is one response, and it is legal for
the instruction, the operation and the format of that very request. A step that answers a request keeps it, with that request
among the answered ones, and so does the model's idle step (log 4). -/
def Obligations.StepKeepsResponsesLegal : Prop :=
  ∀ (answered : List Request) (s t : State), s.Inv answered → step s = .next t → t.Inv (answered ++ s.requests.take 1)

/-- The response that a step gives is legal for the instruction that its request decodes to: it is a success of that
operation in that format where the operand fits, and `OUT_OF_RANGE` where it does not. -/
def Obligations.ResponseIsLegalForItsInstruction : Prop :=
  ∀ (s : State) (r : Request) (rest : List Request) (i : Instr), s.requests = r :: rest → decode r = .ok i →
    ∃ response : Response, step s = .next { requests := rest, responses := s.responses ++ [response] } ∧
      response.legalFor i

/-- R191 and the model's reset (log 2): nothing is pending and nothing has been answered after reset, the invariant holds, and
the first request may be any of the 25 instructions: it gets the response it gets at any other time. -/
def Obligations.ResetAcceptsAnyFirstInstruction : Prop :=
  State.reset.requests = [] ∧ State.reset.responses = [] ∧ State.reset.Inv [] ∧
    ∀ i : Instr, step (State.reset.issue (encode i)) = .next { requests := [], responses := [ask (encode i)] } ∧
      exec i State.reset = .next { requests := [], responses := [ask (encode i)] }

/-- Completion and frame of all 25 instructions: each answers exactly once from every state, changes no request and no earlier
response, and its response, which does not depend on the state, is `OK` exactly when its operand fits. -/
def Obligations.EveryInstructionCompletesAndOnlyAnswers : Prop :=
  ∀ i : Instr, ∃ r : Response,
    (∀ s : State, exec i s = .next { requests := s.requests, responses := s.responses ++ [r] }) ∧
      (r.status = 0 ↔ i.wellFormed = true) ∧ (r.status ≠ 0 → r = .outOfRange)

/-! The instructions -/

/-- R81 to R85: DESC answers the row of the format table, whatever `data` holds. -/
def Obligations.DescAnswersFormatRow : Prop :=
  ∀ d : Word,
    Answers 0x00 .descBf8 d (.desc 8 1 5 2 15) ∧ Answers 0x01 .descBf16 d (.desc 16 1 8 7 127) ∧
      Answers 0x02 .descFp16 d (.desc 16 1 5 10 15) ∧ Answers 0x03 .descFp32 d (.desc 32 1 8 23 127) ∧
      Answers 0x04 .descFp64 d (.desc 64 1 11 52 1023)

/-- R91, R92: WIDEN of a narrow format checks the operand and puts zeros below the pattern. -/
def Obligations.WidenNarrowFormatsAppendsZeros : Prop :=
  ∀ d : Word,
    (d.extractLsb' 8 56 ≠ 0#56 → Answers 0x08 .widenBf8 d .outOfRange) ∧
    (d.extractLsb' 8 56 = 0#56 →
      Answers 0x08 .widenBf8 d (.widen ((d.extractLsb' 0 8 ++ 0x00#8).setWidth 64))) ∧
    (d.extractLsb' 16 48 ≠ 0#48 → Answers 0x09 .widenBf16 d .outOfRange) ∧
    (d.extractLsb' 16 48 = 0#48 →
      Answers 0x09 .widenBf16 d (.widen ((d.extractLsb' 0 16 ++ 0x0000#16).setWidth 64)))

/-- R93 to R95: WIDEN of a native format checks the operand and answers the same bits. -/
def Obligations.WidenNativeFormatsKeepsBits : Prop :=
  ∀ d : Word,
    (d.extractLsb' 16 48 ≠ 0#48 → Answers 0x0A .widenFp16 d .outOfRange) ∧
    (d.extractLsb' 16 48 = 0#48 → Answers 0x0A .widenFp16 d (.widen d)) ∧
    (d.extractLsb' 32 32 ≠ 0#32 → Answers 0x0B .widenFp32 d .outOfRange) ∧
    (d.extractLsb' 32 32 = 0#32 → Answers 0x0B .widenFp32 d (.widen d)) ∧
    Answers 0x0C .widenFp64 d (.widen d)

/-- R106: NARROW.bf8, the NaN branch and the rounding branch on the 16 bits of an fp16 pattern. -/
def Obligations.NarrowBf8RoundsOrForces : Prop :=
  ∀ d : Word,
    let v : BitVec 16 := d.extractLsb' 0 16
    let t : BitVec 8 := v.extractLsb' 8 8
    let r : BitVec 16 := v + (0x7F#16 + (v.extractLsb' 8 1).setWidth 16)
    (d.extractLsb' 16 48 ≠ 0#48 → Answers 0x10 .narrowBf8 d .outOfRange) ∧
    (d.extractLsb' 16 48 = 0#48 → v.extractLsb' 10 5 = 0x1F#5 → v.extractLsb' 0 10 ≠ 0#10 →
      t.extractLsb' 0 2 ≠ 0#2 → Answers 0x10 .narrowBf8 d (.narrow (t.setWidth 64))) ∧
    (d.extractLsb' 16 48 = 0#48 → v.extractLsb' 10 5 = 0x1F#5 → v.extractLsb' 0 10 ≠ 0#10 →
      t.extractLsb' 0 2 = 0#2 → Answers 0x10 .narrowBf8 d (.narrow ((t ||| 0x01#8).setWidth 64))) ∧
    (d.extractLsb' 16 48 = 0#48 → ¬ (v.extractLsb' 10 5 = 0x1F#5 ∧ v.extractLsb' 0 10 ≠ 0#10) →
      Answers 0x10 .narrowBf8 d (.narrow ((r.extractLsb' 8 8).setWidth 64)))

/-- R107: NARROW.bf16, the NaN branch and the rounding branch on the 32 bits of an fp32 pattern. -/
def Obligations.NarrowBf16RoundsOrForces : Prop :=
  ∀ d : Word,
    let v : BitVec 32 := d.extractLsb' 0 32
    let t : BitVec 16 := v.extractLsb' 16 16
    let r : BitVec 32 := v + (0x7FFF#32 + (v.extractLsb' 16 1).setWidth 32)
    (d.extractLsb' 32 32 ≠ 0#32 → Answers 0x11 .narrowBf16 d .outOfRange) ∧
    (d.extractLsb' 32 32 = 0#32 → v.extractLsb' 23 8 = 0xFF#8 → v.extractLsb' 0 23 ≠ 0#23 →
      t.extractLsb' 0 7 ≠ 0#7 → Answers 0x11 .narrowBf16 d (.narrow (t.setWidth 64))) ∧
    (d.extractLsb' 32 32 = 0#32 → v.extractLsb' 23 8 = 0xFF#8 → v.extractLsb' 0 23 ≠ 0#23 →
      t.extractLsb' 0 7 = 0#7 → Answers 0x11 .narrowBf16 d (.narrow ((t ||| 0x0020#16).setWidth 64))) ∧
    (d.extractLsb' 32 32 = 0#32 → ¬ (v.extractLsb' 23 8 = 0xFF#8 ∧ v.extractLsb' 0 23 ≠ 0#23) →
      Answers 0x11 .narrowBf16 d (.narrow ((r.extractLsb' 16 16).setWidth 64)))

/-- R108 to R110: NARROW to a native format checks the operand and answers the same bits. -/
def Obligations.NarrowNativeFormatsKeepsBits : Prop :=
  ∀ d : Word,
    (d.extractLsb' 16 48 ≠ 0#48 → Answers 0x12 .narrowFp16 d .outOfRange) ∧
    (d.extractLsb' 16 48 = 0#48 → Answers 0x12 .narrowFp16 d (.narrow d)) ∧
    (d.extractLsb' 32 32 ≠ 0#32 → Answers 0x13 .narrowFp32 d .outOfRange) ∧
    (d.extractLsb' 32 32 = 0#32 → Answers 0x13 .narrowFp32 d (.narrow d)) ∧
    Answers 0x14 .narrowFp64 d (.narrow d)

/-- R131 to R135: CRACK checks the operand and answers the three fields of the pattern. -/
def Obligations.CrackAnswersThreeFields : Prop :=
  ∀ d : Word,
    (d.extractLsb' 8 56 ≠ 0#56 → Answers 0x18 .crackBf8 d .outOfRange) ∧
    (d.extractLsb' 8 56 = 0#56 → Answers 0x18 .crackBf8 d
      (.crack (d.extractLsb' 7 1) ((d.extractLsb' 2 5).setWidth 11) ((d.extractLsb' 0 2).setWidth 52))) ∧
    (d.extractLsb' 16 48 ≠ 0#48 → Answers 0x19 .crackBf16 d .outOfRange) ∧
    (d.extractLsb' 16 48 = 0#48 → Answers 0x19 .crackBf16 d
      (.crack (d.extractLsb' 15 1) ((d.extractLsb' 7 8).setWidth 11) ((d.extractLsb' 0 7).setWidth 52))) ∧
    (d.extractLsb' 16 48 ≠ 0#48 → Answers 0x1A .crackFp16 d .outOfRange) ∧
    (d.extractLsb' 16 48 = 0#48 → Answers 0x1A .crackFp16 d
      (.crack (d.extractLsb' 15 1) ((d.extractLsb' 10 5).setWidth 11) ((d.extractLsb' 0 10).setWidth 52))) ∧
    (d.extractLsb' 32 32 ≠ 0#32 → Answers 0x1B .crackFp32 d .outOfRange) ∧
    (d.extractLsb' 32 32 = 0#32 → Answers 0x1B .crackFp32 d
      (.crack (d.extractLsb' 31 1) ((d.extractLsb' 23 8).setWidth 11) ((d.extractLsb' 0 23).setWidth 52))) ∧
    Answers 0x1C .crackFp64 d (.crack (d.extractLsb' 63 1) (d.extractLsb' 52 11) (d.extractLsb' 0 52))

/-- R121 to R125: EPS answers the literal of the format, whatever `data` holds. -/
def Obligations.EpsAnswersLiteral : Prop :=
  ∀ d : Word,
    Answers 0x20 .epsBf8 d (.eps 0x34) ∧ Answers 0x21 .epsBf16 d (.eps 0x3C00) ∧
      Answers 0x22 .epsFp16 d (.eps 0x1400) ∧ Answers 0x23 .epsFp32 d (.eps 0x34000000) ∧
      Answers 0x24 .epsFp64 d (.eps 0x3CB0000000000000)

/-- R70: DESC and EPS do not look at `data`, and never fail. -/
def Obligations.ConstantOperationsIgnoreData : Prop :=
  ∀ (f : Format) (d d' : Word),
    ask (requestOf .desc f d) = ask (requestOf .desc f d') ∧ (ask (requestOf .desc f d)).status = 0 ∧
      ask (requestOf .eps f d) = ask (requestOf .eps f d') ∧ (ask (requestOf .eps f d)).status = 0

/-! Failures -/

/-- R171, R174: which instruction answers `OUT_OF_RANGE`, and from which `data` on; no instruction answers
`ILLEGAL_REQUEST`, and every illegal command does. The failure carries no result field. -/
def Obligations.OutOfRangeExactlyFromThreshold : Prop :=
  (∀ (i : Instr) (s : State), ∃ r : Response,
    exec i s = .next { requests := s.requests, responses := s.responses ++ [r] } ∧
      (r = .outOfRange ↔ ∃ n, failureThreshold i = some n ∧ n ≤ i.data.toNat) ∧
      r ≠ .illegalRequest ∧ (r ≠ .outOfRange → r.status = 0)) ∧
  (∀ (r : Request) (e : DecodeError), decode r = .error e → ask r = .illegalRequest) ∧
  Response.outOfRange.status = 1 ∧ Response.outOfRange.results = []

/-- R170: the status is 0, 1 or 2 and never 3; result fields are driven exactly when it is `OK`. -/
def Obligations.StatusTellsWhetherResultsAreDriven : Prop :=
  ∀ r : Response, r.status ≠ 3 ∧ (r.status = 0 ↔ r.results ≠ []) ∧ (r.status = 1 ↔ r = .outOfRange) ∧
    (r.status = 2 ↔ r = .illegalRequest)

/-! Laws of the codec -/

/-- R24: the format table, and the two equations that every row meets. -/
def Obligations.FormatTableRows : Prop :=
  [Format.bf8, .fp16, .bf16, .fp32, .fp64].map
      (fun f => (f.totalBits, f.signBits, f.exponentBits, f.fractionBits, f.bias)) =
    [(8, 1, 5, 2, 15), (16, 1, 5, 10, 15), (16, 1, 8, 7, 127), (32, 1, 8, 23, 127), (64, 1, 11, 52, 1023)] ∧
  ∀ f : Format, f.totalBits = 1 + f.exponentBits + f.fractionBits ∧ f.bias = 2 ^ (f.exponentBits - 1) - 1

/-- R97: WIDEN is injective, its image is the carrier patterns whose low `d` bits are zero, and a right shift by `d` undoes
it there. -/
def Obligations.WidenInjectiveOntoZeroTailed : Prop :=
  ∀ f : Format,
    (∀ p q : BitVec f.totalBits, widen f p = widen f q → p = q) ∧
    (∀ w : BitVec f.carrierBits, (∃ p, widen f p = w) ↔ w.setWidth f.discardedBits = 0#f.discardedBits) ∧
    ∀ p : BitVec f.totalBits, (widen f p >>> f.discardedBits).setWidth f.totalBits = p

/-- R96: WIDEN keeps the meaning of a pattern and its sign bit. The value formula is presumed (G1, log 16). -/
def Obligations.WidenPreservesMeaning : Prop :=
  ∀ (f : Format) (p : BitVec f.totalBits),
    realValue f.carrier (widen f p) = realValue f p ∧ signField f.carrier (widen f p) = signField f p

/-- R111: for every format and every pattern, NaNs included, narrowing what widening answered gives the pattern back, as
answers of the machine. -/
def Obligations.NarrowUndoesWiden : Prop :=
  ∀ (f : Format) (p : BitVec f.totalBits), ∃ v : Word,
    ask (requestOf .widen f (p.setWidth 64)) = .widen v ∧ ask (requestOf .narrow f v) = .narrow (p.setWidth 64)

/-- R112: narrowing a carrier NaN gives a NaN with its sign and exponent bits; the fraction is the top bits of the carrier's
fraction, or the forced bit alone where those are zero. -/
def Obligations.NarrowKeepsNaN : Prop :=
  ∀ f : Format, f.isNarrow = true → ∀ v : BitVec f.carrierBits, isNaN f.carrier v = true →
    isNaN f (narrow f v) = true ∧ signField f (narrow f v) = signField f.carrier v ∧
      (exponentField f (narrow f v)).toNat = (exponentField f.carrier v).toNat ∧
      (fractionField f (narrow f v)).toNat =
        if (fractionField f.carrier v).toNat / 2 ^ f.discardedBits = 0 then 2 ^ (f.fractionBits - 2)
        else (fractionField f.carrier v).toNat / 2 ^ f.discardedBits

/-- The four cases of R113: round down below half, up above it, and to the even pattern on a tie. -/
def Obligations.RoundingHasFourCases : Prop :=
  ∀ f : Format, f.isNarrow = true → ∀ v : BitVec f.carrierBits, isNaN f.carrier v = false →
    let t := v.toNat / 2 ^ f.discardedBits
    let rem := v.toNat % 2 ^ f.discardedBits
    let half := 2 ^ (f.discardedBits - 1)
    (rem < half → (narrow f v).toNat = t) ∧ (half < rem → (narrow f v).toNat = t + 1) ∧
      (rem = half → t % 2 = 0 → (narrow f v).toNat = t) ∧ (rem = half → t % 2 = 1 → (narrow f v).toNat = t + 1)

/-- The value reading of R113 (the value formula is presumed, G1, log 16): from the overflow threshold on the result is the
infinity; below it, it is a finite pattern whose magnitude is nearest to the operand's, the even pattern on a tie, and a zero
up to half the smallest subnormal. The sign is kept. -/
def Obligations.NarrowRoundsToNearestEven : Prop :=
  ∀ f : Format, f.isNarrow = true → ∀ v : BitVec f.carrierBits,
    isNaN f.carrier v = false → isInf f.carrier v = false →
    let x := magnitude f.carrier v
    let emax : ℤ := 2 ^ f.exponentBits - 2 - f.bias
    signField f (narrow f v) = signField f.carrier v ∧
    ((2 : ℚ) ^ (emax + 1) - 2 ^ (emax - f.fractionBits - 1) ≤ x → isInf f (narrow f v) = true) ∧
    (x < (2 : ℚ) ^ (emax + 1) - 2 ^ (emax - f.fractionBits - 1) →
      isNaN f (narrow f v) = false ∧ isInf f (narrow f v) = false ∧
        ∀ q : BitVec f.totalBits, isNaN f q = false → isInf f q = false →
          |magnitude f (narrow f v) - x| ≤ |magnitude f q - x| ∧
            (|magnitude f (narrow f v) - x| = |magnitude f q - x| →
              magnitude f q ≠ magnitude f (narrow f v) → (narrow f v).getLsbD 0 = false)) ∧
    (x ≤ (2 : ℚ) ^ (1 - (f.bias : ℤ) - f.fractionBits - 1) → magnitude f (narrow f v) = 0)

/-- R113: the result is monotone in the operand, over the non-NaN operands of one sign. -/
def Obligations.NarrowIsMonotone : Prop :=
  ∀ f : Format, f.isNarrow = true → ∀ v w : BitVec f.carrierBits,
    isNaN f.carrier v = false → isNaN f.carrier w = false → signField f.carrier v = signField f.carrier w →
      v.toNat ≤ w.toNat → (narrow f v).toNat ≤ (narrow f w).toNat

/-- R105 (b): on the rounding branch no carry leaves bit `W - 1`, and the addition never changes the sign bit. -/
def Obligations.RoundingNeverCarriesOut : Prop :=
  ∀ f : Format, f.isNarrow = true → ∀ v : BitVec f.carrierBits, isNaN f.carrier v = false →
    v.toNat + (roundingBias f v).toNat < 2 ^ f.carrierBits ∧
      signField f.carrier (v + roundingBias f v) = signField f.carrier v

/-- R116: narrowing is idempotent through widening, and onto. -/
def Obligations.NarrowIdempotentAndOnto : Prop :=
  ∀ f : Format,
    (∀ v : BitVec f.carrierBits, narrow f (widen f (narrow f v)) = narrow f v) ∧
      ∀ p : BitVec f.totalBits, ∃ v : BitVec f.carrierBits, narrow f v = p

/-- R118, as far as signs, infinities and NaNs go: WIDEN and NARROW keep the sign bit of every operand and keep infinities;
no NaN comes from an operand that is none. -/
def Obligations.CodecKeepsSignAndInfinity : Prop :=
  ∀ f : Format,
    (∀ v : BitVec f.carrierBits, signField f (narrow f v) = signField f.carrier v ∧
      (isInf f.carrier v = true → isInf f (narrow f v) = true) ∧ isNaN f (narrow f v) = isNaN f.carrier v) ∧
    ∀ p : BitVec f.totalBits, signField f.carrier (widen f p) = signField f p ∧
      isInf f.carrier (widen f p) = isInf f p ∧ isNaN f.carrier (widen f p) = isNaN f p

/-- R114: the source's rounding vector. -/
def Obligations.SourceRoundingVector : Prop :=
  ask ⟨0x11, 0x34000001⟩ = .narrow 0x3400 ∧ ask ⟨0x11, 0x34000000⟩ = .narrow 0x3400

/-- R115: what the NaN branch prevents. The rounding branch would send fp32 `0x7FFFFFFF` to `-0`, and truncation without the
forcing step would send `0x7F800001` to an infinity. NARROW.bf16 gives NaNs, which R107 names; that the second is `0x7FA0`
depends on `NAN_FORCE_BIT` as C1 resolves it (log 6). -/
def Obligations.NaNBranchPreventsCorruption : Prop :=
  narrowRound .bf16 0x7FFFFFFF#32 = 0x8000#16 ∧ ask ⟨0x11, 0x7FFFFFFF⟩ = .narrow 0x7FFF ∧
    topBits .bf16 0x7F800001#32 = 0x7F80#16 ∧ isInf .bf16 0x7F80#16 = true ∧
    ask ⟨0x11, 0x7F800001⟩ = .narrow 0x7FA0 ∧ isNaN .bf16 0x7FA0#16 = true

/-- R136: the cracked fields recombine by shifts and ORs to the pattern, addition does as well as OR, and cracking is a
bijection: every triple of fields is cracked from exactly one pattern. -/
def Obligations.CrackedFieldsRecombine : Prop :=
  ∀ f : Format,
    (∀ p : BitVec f.totalBits, ∃ (s : BitVec 1) (e : BitVec 11) (m : BitVec 52),
      ask (requestOf .crack f (p.setWidth 64)) = .crack s e m ∧
        s.setWidth 64 <<< (f.exponentBits + f.fractionBits) ||| e.setWidth 64 <<< f.fractionBits ||| m.setWidth 64 =
          p.setWidth 64 ∧
        s.toNat * 2 ^ (f.exponentBits + f.fractionBits) + e.toNat * 2 ^ f.fractionBits + m.toNat = p.toNat) ∧
    ∀ (s : BitVec 1) (e : BitVec f.exponentBits) (m : BitVec f.fractionBits), ∃! p : BitVec f.totalBits,
      signField f p = s ∧ exponentField f p = e ∧ fractionField f p = m

/-- R137: cracking the widened pattern under the carrier's layout gives the same sign and exponent and the shifted
fraction, as answers of the machine. -/
def Obligations.CrackCommutesWithWiden : Prop :=
  ∀ f : Format, f.isNarrow = true → ∀ p : BitVec f.totalBits, ∃ (w : Word) (s : BitVec 1) (e : BitVec 11) (m : BitVec 52),
    ask (requestOf .widen f (p.setWidth 64)) = .widen w ∧ ask (requestOf .crack f (p.setWidth 64)) = .crack s e m ∧
      ask (requestOf .crack f.carrier w) = .crack s e (m <<< f.discardedBits)

/-- R126 (the value formula is presumed, G1, log 16): each epsilon literal is `(B - F) << F`, its value is `2^-F`, and that is
the gap between 1.0 and the next larger pattern. -/
def Obligations.EpsilonIsTheGapAfterOne : Prop :=
  ∀ f : Format,
    let one : BitVec f.totalBits := BitVec.ofNat _ (f.bias * 2 ^ f.fractionBits)
    f.epsilon.toNat = (f.bias - f.fractionBits) * 2 ^ f.fractionBits ∧
      realValue f (f.epsilon.setWidth f.totalBits) = .finite false (2 ^ (-(f.fractionBits : ℤ))) ∧
      realValue f one = .finite false 1 ∧
      realValue f (one + 1) = .finite false (1 + 2 ^ (-(f.fractionBits : ℤ)))

/-! The host -/

/-- R150: DECODE of a pattern that fits yields the pattern, the widened bits and the three fields; of one that does not,
`OutOfRange`. -/
def Obligations.DecodeSequenceYieldsValueAndFields : Prop :=
  ∀ f : Format,
    (∀ p : BitVec f.totalBits,
      decodeSequence f (p.setWidth 64) =
        .ok ⟨p.setWidth 64, (widen f p).setWidth 64, signField f p, (exponentField f p).setWidth 11,
          (fractionField f p).setWidth 52⟩) ∧
    ∀ d : Word, 2 ^ f.totalBits ≤ d.toNat → decodeSequence f d = .error .outOfRange

/-- R151, R98: ENCODE never fails on carrier bits; the value it reports is the rounded one, the widening of the pattern. -/
def Obligations.EncodeSequenceReportsRoundedValue : Prop :=
  ∀ (f : Format) (x : BitVec f.carrierBits),
    let p := narrow f x
    encodeSequence f (x.setWidth 64) =
      .ok ⟨p.setWidth 64, (widen f p).setWidth 64, signField f p, (exponentField f p).setWidth 11,
        (fractionField f p).setWidth 52⟩

/-- R152: EPSILON never fails and decodes the epsilon literal. -/
def Obligations.EpsilonSequenceDecodesLiteral : Prop :=
  ∀ f : Format,
    epsilonSequence f = decodeSequence f f.epsilon ∧ ∃ d, epsilonSequence f = .ok d ∧ d.pattern = f.epsilon

/-- R75: the lines of the three pseudo-instructions, run one by one (R74), end with the results of the host's sequence (R150 to
R152) in the named variables, which are five different ones, or stop at the first line where the operand does not fit (R176).
The source is a number or a host variable (R74), with the value `x`; ENCODE may read any variable, one of its destinations
too. A DECODE that reads the variable `v` it writes first cracks the widened value, as its two lines say. A variable that is
not set ends the run there, and a variable's latest binding counts (log 21). -/
def Obligations.PseudoInstructionsRunTheirSequences : Prop :=
  ∀ (f : Format) (src : Source) (vars : Vars) (p v s e m : Nat), [p, v, s, e, m].Nodup →
    (∀ x, src.value vars = .ok x →
      (∀ d, decodeSequence f x = .ok d → src ≠ .var v →
        ∃ out, runLines (decodeLines f src v s e m) vars = .finished out ∧
          [v, s, e, m].map (fun n => out.lookup n) =
            [some d.value, some (d.sign.setWidth 64), some (d.exponent.setWidth 64), some (d.fraction.setWidth 64)]) ∧
      (∀ d, decodeSequence f x = .ok d → src = .var v →
        let response := ask (requestOf .crack f d.value)
        let vars' : Vars := (v, d.value) :: vars
        runLines (decodeLines f src v s e m) vars =
          if response.status = 0 then .finished ([s, e, m].zip response.results ++ vars')
          else .failed vars' ⟨[s, e, m], .crack, f, some src⟩ d.value response) ∧
      (∀ d, encodeSequence f x = .ok d →
        ∃ out, runLines (encodeLines f src p v s e m) vars = .finished out ∧
          [p, v, s, e, m].map (fun n => out.lookup n) =
            [some d.pattern, some d.value, some (d.sign.setWidth 64), some (d.exponent.setWidth 64),
              some (d.fraction.setWidth 64)]) ∧
      (decodeSequence f x = .error .outOfRange →
        runLines (decodeLines f src v s e m) vars = .failed vars ⟨[v], .widen, f, some src⟩ x .outOfRange) ∧
      (encodeSequence f x = .error .outOfRange →
        runLines (encodeLines f src p v s e m) vars = .failed vars ⟨[p], .narrow, f, some src⟩ x .outOfRange)) ∧
    (∀ n, src.value vars = .error n →
      runLines (decodeLines f src v s e m) vars = .unset vars n ∧
        runLines (encodeLines f src p v s e m) vars = .unset vars n) ∧
    ∃ d out, epsilonSequence f = .ok d ∧ runLines (epsilonLines f p v s e m) vars = .finished out ∧
      [p, v, s, e, m].map (fun n => out.lookup n) =
        [some d.pattern, some d.value, some (d.sign.setWidth 64), some (d.exponent.setWidth 64),
          some (d.fraction.setWidth 64)]

/-- R176: the host stops a sequence at its first failure: whatever lines follow, none is run, no variable is set, and the
failure is reported with the line, its format, and the operand sent. -/
def Obligations.HostStopsAtFirstFailure : Prop :=
  ∀ (l : Line) (rest : List Line) (vars : Vars) (data : Word), l.operand vars = .ok data →
    (ask (requestOf l.op l.fmt data)).status ≠ 0 →
      runLines (l :: rest) vars = .failed vars l data (ask (requestOf l.op l.fmt data))

/-- R176, R140: the host reports a failure by its kind, with the literal as it was given and the format, and gives none of
the success outputs; the two kinds stay apart. A literal that the parser accepts gives the report. -/
def Obligations.FailureIsReportedWithLiteralAndFormat : Prop :=
  ∀ (f : Format) (literal : Text),
    (∀ kind, parse f literal = .error kind ↔ convert f literal = .error ⟨kind, literal, f⟩) ∧
    (∀ failure : FailureReport, convert f literal = .error failure → failure.literal = literal ∧ failure.format = f) ∧
    ∀ r : Report, convert f literal = .ok r ↔ ∃ d, parse f literal = .ok d ∧ r = report f d

/-- The source's literal fidelity examples (95_test_vectors.md section 1.2). -/
def Obligations.SourceLiteralExamples : Prop :=
  parse .fp16 ['0', 'x', '4', '2', '0', '0'] = .ok ⟨0x4200, 0x4200, 0, 0x10, 0x200⟩ ∧
    realValue .fp16 0x4200#16 = .finite false 3 ∧
    parse .fp32 ['0', 'x', '1', '.', '8', 'p', '1'] = .ok ⟨0x40400000, 0x40400000, 0, 0x80, 0x400000⟩ ∧
    parse .fp32 ['3', '.', '0'] = .ok ⟨0x40400000, 0x40400000, 0, 0x80, 0x400000⟩ ∧
    realValue .fp32 0x40400000#32 = .finite false 3 ∧
    parse .fp64 ['e', 'p', 's', 'i', 'l', 'o', 'n'] = .ok ⟨0x3CB0000000000000, 0x3CB0000000000000, 0, 0x3CB, 0⟩ ∧
    parse .fp64 ['i', 'n', 'f'] = .ok ⟨0x7FF0000000000000, 0x7FF0000000000000, 0, 0x7FF, 0⟩

/-- R146, D17: the host's carrier bits are determined where the literal's value is exactly a carrier value, and a NaN literal
becomes some NaN. The value formula is presumed (G1, log 16). -/
def Obligations.HostToCarrierIsExactOnCarrierValues : Prop :=
  ∀ (f : Format) (literal : Text),
    (∀ p : BitVec f.carrierBits, isNaN f.carrier p = false → hostToCarrier f literal (realValue f.carrier p) = p) ∧
      isNaN f.carrier (hostToCarrier f literal .nan) = true

/-- R147: a hexadecimal, a binary and a decimal integer literal are the bit pattern that their digits denote. -/
def Obligations.IntegerLiteralsDenoteTheirDigits : Prop :=
  ∀ (f : Format) (p : BitVec f.totalBits),
    parse f ('0' :: 'x' :: hexDigits p.toNat) = decodeSequence f (p.setWidth 64) ∧
      parse f ('0' :: 'b' :: binaryDigits f.totalBits p.toNat) = decodeSequence f (p.setWidth 64) ∧
      parse f (decimal p.toNat) = decodeSequence f (p.setWidth 64)

/-- R148: an integer literal gives a pattern exactly when it is not negative and does not exceed the format's width, and
`OutOfRange` otherwise; so does `-1`, for every format. The patterns of EPS and of NARROW are always in range. -/
def Obligations.IntegerLiteralsAreRangeChecked : Prop :=
  (∀ (f : Format) (literal : Text) (z : Int),
    isEpsilon (normalise literal) = false → isValueLiteral (normalise literal) = false →
      parseInteger (normalise literal) = some z →
        (z < 0 ∨ 2 ^ f.totalBits ≤ z → parse f literal = .error .outOfRange) ∧
        (0 ≤ z → z < 2 ^ f.totalBits → ∃ d, parse f literal = .ok d ∧ (d.pattern.toNat : Int) = z)) ∧
  (∀ f : Format, parse f ['-', '1'] = .error .outOfRange) ∧
  ∀ (f : Format) (op : Op) (data p : Word),
    ask (requestOf op f data) = .narrow p ∨ ask (requestOf op f data) = .eps p → p.toNat < 2 ^ f.totalBits

/-- R154: what the order of the dispatch rules means for strings a reader might expect to work. -/
def Obligations.DispatchOrderConsequences : Prop :=
  ∀ f : Format,
    parse f ['1', 'e', '5'] = .error .malformedLiteral ∧
    parse f ['0', 'x', '1', 'p', '3'] = .error .malformedLiteral ∧
    parse f ['0', 'x', '4', '2', '0', '0'] = decodeSequence f 0x4200 ∧
    parse f ['3'] = decodeSequence f 3 ∧
    parseValue ['3', '.', '0'] = some (.finite false 3) ∧
    (∀ literal ∈ [['1', '.', 'e', '5'], ['1', '.', '0', 'e', '5'], ['0', 'x', '1', '.', 'p', '3'], ['3', '.', '0'],
        ['n', 'a', 'n'], ['i', 'n', 'f'], ['-', 'i', 'n', 'f'], ['I', 'n', 'f', 'i', 'n', 'i', 't', 'y']],
      isEpsilon (normalise literal) = false ∧ isValueLiteral (normalise literal) = true) ∧
    parse f ['0', 'b', '1', 'n'] = .error .malformedLiteral ∧
    parse f ['1', '.', '2', '.', '3'] = .error .malformedLiteral

/-- R141: `_` characters make no difference, wherever they stand. -/
def Obligations.UnderscoresMakeNoDifference : Prop :=
  ∀ (f : Format) (a b : Text), parse f (a ++ '_' :: b) = parse f (a ++ b)

/-- R155: the binary string has `T + 2` characters: the sign digit, the exponent's `E` digits and the fraction's `F` digits,
which read back, in base 2, as the three fields. -/
def Obligations.BinaryStringSpellsTheFields : Prop :=
  ∀ (f : Format) (p : BitVec f.totalBits), ∃ s e m : Text,
    binaryString f (signField f p) ((exponentField f p).setWidth 11) ((fractionField f p).setWidth 52) =
        s ++ ' ' :: e ++ ' ' :: m ∧
      s.length = 1 ∧ e.length = f.exponentBits ∧ m.length = f.fractionBits ∧
      s.length + 1 + e.length + 1 + m.length = f.totalBits + 2 ∧
      digitsValue 2 s = some (signField f p).toNat ∧ digitsValue 2 e = some (exponentField f p).toNat ∧
      digitsValue 2 m = some (fractionField f p).toNat

/-- R159: the fraction string is `0x` and uppercase hexadecimal digits that read back as the fraction, whether the host
zero-pads them or not (log 18). -/
def Obligations.FractionStringReadsBack : Prop :=
  ∀ (f : Format) (m : BitVec 52), ∃ ds : Text,
    fractionString f m = '0' :: 'x' :: ds ∧ digitsValue 16 ds = some m.toNat ∧
      ∀ c ∈ ds, c ∈ ['0', '1', '2', '3', '4', '5', '6', '7', '8', '9', 'A', 'B', 'C', 'D', 'E', 'F']

/-- The strip rule of R157, where the spec gives it: eleven zeros before the first `p` for bf16, ten for bf8 and fp16, go, and
nothing else. That the first such place is taken, where `after` holds another, is the model's choice (log 17). -/
def Obligations.HexFloatStripRule : Prop :=
  ∀ before after : Text, 'p' ∉ before →
    stripHexFloat .bf16 (before ++ List.replicate 11 '0' ++ 'p' :: after) = before ++ 'p' :: after ∧
      stripHexFloat .bf8 (before ++ List.replicate 10 '0' ++ 'p' :: after) = before ++ 'p' :: after ∧
      stripHexFloat .fp16 (before ++ List.replicate 10 '0' ++ 'p' :: after) = before ++ 'p' :: after

/-- The premise-made-explicit form of R160: a value literal whose parsed value is exactly that of a non-NaN pattern of the
format parses to that pattern. The value formula is presumed (G1, log 16). -/
def Obligations.ExactLiteralReparsesToItsPattern : Prop :=
  ∀ (f : Format) (p : BitVec f.totalBits) (literal : Text), isNaN f p = false →
    isEpsilon (normalise literal) = false → isValueLiteral (normalise literal) = true →
      parseValue (normalise literal) = some (realValue f p) →
        ∃ d, parse f literal = .ok d ∧ d.pattern = p.setWidth 64

/-- R158 and the worked examples P1 and P5; the decimal base is the model's choice (log 18). -/
def Obligations.ExponentStringShowsTheSubtraction : Prop :=
  exponentString .fp16 16 = ['1', '6', ' ', '-', ' ', '1', '5', ' ', '=', ' ', '1'] ∧
    exponentString .fp16 0 = ['0', ' ', '-', ' ', '1', '5', ' ', '=', ' ', '-', '1', '5'] ∧
    exponentString .fp64 0x3CB =
      ['9', '7', '1', ' ', '-', ' ', '1', '0', '2', '3', ' ', '=', ' ', '-', '5', '2']
end

