-- ==== Sys2Proof/Laws/Decode.lean ====
section
/-! SUPPORT. The decoder in two halves: the command alone selects the instruction. -/

namespace Sys2Proof

theorem decode_of_command {cmd : Command} {op : Op} {fmt : Format} (h : decodeCommand cmd = .ok (op, fmt))
    (data : Word) : decode ⟨cmd, data⟩ = .ok (Instr.ofParts op fmt data) := by
  simp [decode, h]

theorem decode_of_illegal {cmd : Command} {e : DecodeError} (h : decodeCommand cmd = .error e) (data : Word) :
    decode ⟨cmd, data⟩ = .error e := by
  simp [decode, h]

theorem requestOf_data (op : Op) (fmt : Format) (data : Word) : (requestOf op fmt data).data = data := by
  cases op <;> cases fmt <;> rfl

/-- The operand takes no part in the command (R60). -/
theorem requestOf_cmd (op : Op) (fmt : Format) (data : Word) :
    (requestOf op fmt data).cmd = (requestOf op fmt 0).cmd := by
  cases op <;> cases fmt <;> rfl

/-- What the host builds decodes to the instruction it asks for (R149). -/
theorem decode_requestOf (op : Op) (fmt : Format) (data : Word) :
    decode (requestOf op fmt data) = .ok (Instr.ofParts op fmt data) := by
  have h : decodeCommand (requestOf op fmt 0).cmd = .ok (op, fmt) := by cases op <;> cases fmt <;> decide
  rw [← requestOf_cmd op fmt data] at h
  have hd : decode (requestOf op fmt data) = .ok (Instr.ofParts op fmt (requestOf op fmt data).data) := decode_of_command h _
  rwa [requestOf_data] at hd

theorem Instr.ofParts_self (i : Instr) : Instr.ofParts i.op i.format i.data = i := by cases i <;> rfl

end Sys2Proof
end

