-- ==== Sys2Proof/Laws/Formats.lean ====
section
/-! SUPPORT. How the widths of a format and of its carrier hang together (R16, R24, R32). -/

namespace Sys2Proof

theorem Format.totalBits_eq (f : Format) : f.totalBits = f.exponentBits + f.fractionBits + 1 := by cases f <;> rfl

theorem Format.carrierBits_eq (f : Format) : f.carrierBits = f.totalBits + f.discardedBits := by cases f <;> rfl

theorem Format.carrier_exponentBits (f : Format) : f.carrier.exponentBits = f.exponentBits := by cases f <;> rfl

theorem Format.carrier_bias (f : Format) : f.carrier.bias = f.bias := by cases f <;> rfl

theorem Format.carrier_fractionBits (f : Format) : f.carrier.fractionBits = f.fractionBits + f.discardedBits := by
  cases f <;> rfl

theorem Format.totalBits_le (f : Format) : f.totalBits ≤ 64 := by cases f <;> decide

theorem Format.carrierBits_le (f : Format) : f.carrierBits ≤ 64 := by cases f <;> decide

theorem Format.discardedBits_native {f : Format} (h : f.isNarrow = false) : f.discardedBits = 0 := by
  cases f <;> simp_all

end Sys2Proof
end

