-- ==== Sys2Proof/Laws/Ops.lean ====
section
/-! SUPPORT. One lemma for each shared operation, in numbers: what the provers cite instead of unfolding it. -/

namespace Sys2Proof.Machine

/-- The range check fails exactly from `2^n` on (R67, R69, R171). -/
theorem tooWide_iff (n : Nat) (h : n ≤ 64) (data : Word) : tooWide n data = true ↔ 2 ^ n ≤ data.toNat := by
  have hd := data.isLt
  rcases Nat.lt_or_ge n 64 with hn | hn
  · have hz : data >>> n = 0#64 ↔ data.toNat / 2 ^ n = 0 := by
      rw [← BitVec.toNat_inj, BitVec.toNat_ushiftRight, Nat.shiftRight_eq_div_pow]
      simp
    simp [tooWide, hn, hz, Nat.div_eq_zero_iff]
  · obtain rfl : n = 64 := by omega
    simp [tooWide]
    omega

theorem patternOperand_of_lt {f : Format} {data : Word} (h : data.toNat < 2 ^ f.totalBits) :
    patternOperand f data = some (data.setWidth f.totalBits) := by
  have := (tooWide_iff f.totalBits f.totalBits_le data).not.mpr (by omega)
  simp [patternOperand, this]

theorem patternOperand_of_le {f : Format} {data : Word} (h : 2 ^ f.totalBits ≤ data.toNat) :
    patternOperand f data = none := by
  simp [patternOperand, (tooWide_iff f.totalBits f.totalBits_le data).mpr h]

theorem valueOperand_of_lt {f : Format} {data : Word} (h : data.toNat < 2 ^ f.carrierBits) :
    valueOperand f data = some (data.setWidth f.carrierBits) := by
  have := (tooWide_iff f.carrierBits f.carrierBits_le data).not.mpr (by omega)
  simp [valueOperand, this]

theorem valueOperand_of_le {f : Format} {data : Word} (h : 2 ^ f.carrierBits ≤ data.toNat) :
    valueOperand f data = none := by
  simp [valueOperand, (tooWide_iff f.carrierBits f.carrierBits_le data).mpr h]

theorem widenResponse_of_lt {f : Format} {data : Word} (h : data.toNat < 2 ^ f.totalBits) :
    widenResponse f data = .widen ((widen f (data.setWidth f.totalBits)).setWidth 64) := by
  simp [widenResponse, patternOperand_of_lt h]

theorem widenResponse_of_le {f : Format} {data : Word} (h : 2 ^ f.totalBits ≤ data.toNat) :
    widenResponse f data = .outOfRange := by
  simp [widenResponse, patternOperand_of_le h]

theorem narrowResponse_of_lt {f : Format} {data : Word} (h : data.toNat < 2 ^ f.carrierBits) :
    narrowResponse f data = .narrow ((narrow f (data.setWidth f.carrierBits)).setWidth 64) := by
  simp [narrowResponse, valueOperand_of_lt h]

theorem narrowResponse_of_le {f : Format} {data : Word} (h : 2 ^ f.carrierBits ≤ data.toNat) :
    narrowResponse f data = .outOfRange := by
  simp [narrowResponse, valueOperand_of_le h]

theorem crackResponse_of_lt {f : Format} {data : Word} (h : data.toNat < 2 ^ f.totalBits) :
    crackResponse f data =
      .crack (signField f (data.setWidth f.totalBits)) ((exponentField f (data.setWidth f.totalBits)).setWidth 11)
        ((fractionField f (data.setWidth f.totalBits)).setWidth 52) := by
  simp [crackResponse, patternOperand_of_lt h]

theorem crackResponse_of_le {f : Format} {data : Word} (h : 2 ^ f.totalBits ≤ data.toNat) :
    crackResponse f data = .outOfRange := by
  simp [crackResponse, patternOperand_of_le h]

/-- Widening multiplies the pattern, read as a number, by `2^d` (R91 to R95). -/
theorem toNat_widen (f : Format) (p : BitVec f.totalBits) : (widen f p).toNat = p.toNat * 2 ^ f.discardedBits := by
  have h : p.toNat * 2 ^ f.discardedBits < 2 ^ f.carrierBits := by
    rw [f.carrierBits_eq, Nat.pow_add]
    exact Nat.mul_lt_mul_of_pos_right p.isLt (by positivity)
  have hp : p.toNat < 2 ^ f.carrierBits := lt_of_le_of_lt (Nat.le_mul_of_pos_right _ (by positivity)) h
  rw [widen, BitVec.toNat_shiftLeft, Nat.shiftLeft_eq, BitVec.toNat_setWidth, Nat.mod_eq_of_lt hp, Nat.mod_eq_of_lt h]

/-- The top bits are the quotient by `2^d` (R101, R113). -/
theorem toNat_topBits (f : Format) (v : BitVec f.carrierBits) :
    (topBits f v).toNat = v.toNat / 2 ^ f.discardedBits := by
  have h : v.toNat / 2 ^ f.discardedBits < 2 ^ f.totalBits := by
    rw [Nat.div_lt_iff_lt_mul (by positivity), ← Nat.pow_add, ← f.carrierBits_eq]
    exact v.isLt
  simp [topBits, Nat.shiftRight_eq_div_pow, Nat.mod_eq_of_lt h]

theorem toNat_signField (f : Format) (p : BitVec f.totalBits) :
    (signField f p).toNat = p.toNat / 2 ^ (f.exponentBits + f.fractionBits) % 2 := by
  simp [signField, Nat.shiftRight_eq_div_pow]

theorem toNat_exponentField (f : Format) (p : BitVec f.totalBits) :
    (exponentField f p).toNat = p.toNat / 2 ^ f.fractionBits % 2 ^ f.exponentBits := by
  simp [exponentField, Nat.shiftRight_eq_div_pow]

theorem toNat_fractionField (f : Format) (p : BitVec f.totalBits) :
    (fractionField f p).toNat = p.toNat % 2 ^ f.fractionBits := by
  simp [fractionField]

/-- The NaN test in numbers (R29, R102). -/
theorem isNaN_iff (f : Format) (p : BitVec f.totalBits) :
    isNaN f p = true ↔
      p.toNat / 2 ^ f.fractionBits % 2 ^ f.exponentBits = 2 ^ f.exponentBits - 1 ∧ p.toNat % 2 ^ f.fractionBits ≠ 0 := by
  simp only [isNaN, Bool.and_eq_true, beq_iff_eq, bne_iff_ne, ne_eq, ← BitVec.toNat_inj, toNat_exponentField,
    toNat_fractionField, BitVec.toNat_allOnes, BitVec.toNat_ofNat, Nat.zero_mod]

theorem isInf_iff (f : Format) (p : BitVec f.totalBits) :
    isInf f p = true ↔
      p.toNat / 2 ^ f.fractionBits % 2 ^ f.exponentBits = 2 ^ f.exponentBits - 1 ∧ p.toNat % 2 ^ f.fractionBits = 0 := by
  simp only [isInf, Bool.and_eq_true, beq_iff_eq, ← BitVec.toNat_inj, toNat_exponentField, toNat_fractionField,
    BitVec.toNat_allOnes, BitVec.toNat_ofNat, Nat.zero_mod]

theorem narrow_of_native {f : Format} (h : f.isNarrow = false) (v : BitVec f.carrierBits) :
    narrow f v = v.setWidth f.totalBits := by
  simp [narrow, h]

theorem narrow_of_nan {f : Format} (h : f.isNarrow = true) {v : BitVec f.carrierBits} (hv : isNaN f.carrier v = true) :
    narrow f v = narrowNaN f v := by
  simp [narrow, h, hv]

theorem narrow_of_not_nan {f : Format} (h : f.isNarrow = true) {v : BitVec f.carrierBits}
    (hv : isNaN f.carrier v = false) : narrow f v = narrowRound f v := by
  simp [narrow, h, hv]

end Sys2Proof.Machine
end

