-- ==== Sys2Proof/Laws/PerInstr.lean ====
section
/-! SUPPORT. Statements about every instruction as syntax, one lemma per constructor. -/

namespace Sys2Proof.Laws

/-- The encoder writes the command `8 * op + fmt` and keeps the operand (R60, R61, R76). -/
def CommandByte.Statement (i : Instr) : Prop :=
  (encode i).cmd.toNat = 8 * i.op.number + i.format.number ∧ (encode i).data = i.data

theorem CommandByte.descBf8 (data : Word) : CommandByte.Statement (.descBf8 data) := ⟨rfl, rfl⟩

theorem CommandByte.descBf16 (data : Word) : CommandByte.Statement (.descBf16 data) := ⟨rfl, rfl⟩

theorem CommandByte.descFp16 (data : Word) : CommandByte.Statement (.descFp16 data) := ⟨rfl, rfl⟩

theorem CommandByte.descFp32 (data : Word) : CommandByte.Statement (.descFp32 data) := ⟨rfl, rfl⟩

theorem CommandByte.descFp64 (data : Word) : CommandByte.Statement (.descFp64 data) := ⟨rfl, rfl⟩

theorem CommandByte.widenBf8 (data : Word) : CommandByte.Statement (.widenBf8 data) := ⟨rfl, rfl⟩

theorem CommandByte.widenBf16 (data : Word) : CommandByte.Statement (.widenBf16 data) := ⟨rfl, rfl⟩

theorem CommandByte.widenFp16 (data : Word) : CommandByte.Statement (.widenFp16 data) := ⟨rfl, rfl⟩

theorem CommandByte.widenFp32 (data : Word) : CommandByte.Statement (.widenFp32 data) := ⟨rfl, rfl⟩

theorem CommandByte.widenFp64 (data : Word) : CommandByte.Statement (.widenFp64 data) := ⟨rfl, rfl⟩

theorem CommandByte.narrowBf8 (data : Word) : CommandByte.Statement (.narrowBf8 data) := ⟨rfl, rfl⟩

theorem CommandByte.narrowBf16 (data : Word) : CommandByte.Statement (.narrowBf16 data) := ⟨rfl, rfl⟩

theorem CommandByte.narrowFp16 (data : Word) : CommandByte.Statement (.narrowFp16 data) := ⟨rfl, rfl⟩

theorem CommandByte.narrowFp32 (data : Word) : CommandByte.Statement (.narrowFp32 data) := ⟨rfl, rfl⟩

theorem CommandByte.narrowFp64 (data : Word) : CommandByte.Statement (.narrowFp64 data) := ⟨rfl, rfl⟩

theorem CommandByte.crackBf8 (data : Word) : CommandByte.Statement (.crackBf8 data) := ⟨rfl, rfl⟩

theorem CommandByte.crackBf16 (data : Word) : CommandByte.Statement (.crackBf16 data) := ⟨rfl, rfl⟩

theorem CommandByte.crackFp16 (data : Word) : CommandByte.Statement (.crackFp16 data) := ⟨rfl, rfl⟩

theorem CommandByte.crackFp32 (data : Word) : CommandByte.Statement (.crackFp32 data) := ⟨rfl, rfl⟩

theorem CommandByte.crackFp64 (data : Word) : CommandByte.Statement (.crackFp64 data) := ⟨rfl, rfl⟩

theorem CommandByte.epsBf8 (data : Word) : CommandByte.Statement (.epsBf8 data) := ⟨rfl, rfl⟩

theorem CommandByte.epsBf16 (data : Word) : CommandByte.Statement (.epsBf16 data) := ⟨rfl, rfl⟩

theorem CommandByte.epsFp16 (data : Word) : CommandByte.Statement (.epsFp16 data) := ⟨rfl, rfl⟩

theorem CommandByte.epsFp32 (data : Word) : CommandByte.Statement (.epsFp32 data) := ⟨rfl, rfl⟩

theorem CommandByte.epsFp64 (data : Word) : CommandByte.Statement (.epsFp64 data) := ⟨rfl, rfl⟩

end Sys2Proof.Laws
end

