-- ==== Sys2Proof/Laws/Sequences.lean ====
section
/-! SUPPORT. What the machine answers to the host's requests, and how one line of host assembly runs. -/

namespace Sys2Proof.Machine

/-- The response to a request, once its instruction and that instruction's response are known. -/
theorem ask_of_exec {r : Request} {i : Instr} {response : Response} (hd : decode r = .ok i)
    (he : ∀ s : State, exec i s = .next (s.answer response)) : ask r = response := by
  simp [ask, step, State.reset, hd, he]

theorem ask_desc (f : Format) (data : Word) : ask (requestOf .desc f data) = descResponse f :=
  ask_of_exec (decode_requestOf _ f data) (by cases f <;> exact fun _ => rfl)

theorem ask_widen (f : Format) (data : Word) : ask (requestOf .widen f data) = widenResponse f data :=
  ask_of_exec (decode_requestOf _ f data) (by cases f <;> exact fun _ => rfl)

theorem ask_narrow (f : Format) (data : Word) : ask (requestOf .narrow f data) = narrowResponse f data :=
  ask_of_exec (decode_requestOf _ f data) (by cases f <;> exact fun _ => rfl)

theorem ask_crack (f : Format) (data : Word) : ask (requestOf .crack f data) = crackResponse f data :=
  ask_of_exec (decode_requestOf _ f data) (by cases f <;> exact fun _ => rfl)

theorem ask_eps (f : Format) (data : Word) : ask (requestOf .eps f data) = epsResponse f :=
  ask_of_exec (decode_requestOf _ f data) (by cases f <;> exact fun _ => rfl)

@[simp] theorem Source.value_literal (vars : Vars) (w : Word) : Source.value vars (.literal w) = .ok w := rfl

theorem Source.value_var_of_lookup {vars : Vars} {n : Nat} {w : Word} (h : vars.lookup n = some w) :
    Source.value vars (.var n) = .ok w := by
  simp [Source.value, h]

@[simp] theorem Line.operand_none (dst : List Nat) (op : Op) (f : Format) (vars : Vars) :
    Line.operand ⟨dst, op, f, none⟩ vars = .ok 0 := rfl

@[simp] theorem Line.operand_some (dst : List Nat) (op : Op) (f : Format) (source : Source) (vars : Vars) :
    Line.operand ⟨dst, op, f, some source⟩ vars = source.value vars := rfl

/-- A line whose response is `OK` binds its variables, and the rest runs. -/
theorem runLines_cons_of_ok {l : Line} {vars : Vars} {data : Word} (rest : List Line) (h : l.operand vars = .ok data)
    (hs : (ask (requestOf l.op l.fmt data)).status = 0) :
    runLines (l :: rest) vars = runLines rest (l.dst.zip (ask (requestOf l.op l.fmt data)).results ++ vars) := by
  simp [runLines, h, hs]

end Sys2Proof.Machine
end

