-- ==== Sys2Proof/Laws/Step.lean ====
section
/-! SUPPORT. What one step can do, said once. -/

namespace Sys2Proof.Machine

/-- The cases of a step: it idles, it runs the decoded instruction, or it answers an illegal command. -/
theorem step_cases (s : State) :
    (s.requests = [] ∧ step s = .next s) ∨
      ∃ r rest, s.requests = r :: rest ∧
        ((∃ i, decode r = .ok i ∧ step s = exec i { s with requests := rest }) ∨
          (∃ e, decode r = .error e ∧ step s = .next (State.answer { s with requests := rest } .illegalRequest))) := by
  rcases h : s.requests with _ | ⟨r, rest⟩
  · exact .inl ⟨rfl, by simp [step, h]⟩
  · refine .inr ⟨r, rest, rfl, ?_⟩
    rcases hd : decode r with e | i
    · exact .inr ⟨e, rfl, by simp [step, h, hd]⟩
    · exact .inl ⟨i, rfl, by simp [step, h, hd]⟩

/-- A run of a machine whose first step goes on is a run from the next state. -/
theorem run_succ_of_next (M : Host.Core) (k : Nat) {s t : M.State} (h : M.step s = .next t) :
    M.run (k + 1) s = M.run k t := by
  simp [Host.Core.run, h]

theorem core_run_zero (s : State) : Sys2Proof.core.run 0 s = .next s := rfl

theorem core_run_succ (k : Nat) {s t : State} (h : step s = .next t) :
    Sys2Proof.core.run (k + 1) s = Sys2Proof.core.run k t :=
  run_succ_of_next Sys2Proof.core k h

end Sys2Proof.Machine
end

