-- ==== Sys2Proof/Tests/Slice0.lean ====
section
/-! SUPPORT. Tests with results from spec/ (95_test_vectors.md and the corner cases and examples of the rules), and a witness for
the hypotheses of each statement. -/

namespace Sys2Proof.Tests

open Sys2Proof Sys2Proof.Machine

/-! Decoding: the command byte written out as `00`, `op`, `fmt` (R61 to R63) in front of the operand. -/

theorem test_decode_desc :
    decodeBits (0b00000000#8 ++ 0x0123456789ABCDE0#64) = .ok (.descBf8 0x0123456789ABCDE0) ∧
    decodeBits (0b00000001#8 ++ 0x0123456789ABCDE1#64) = .ok (.descBf16 0x0123456789ABCDE1) ∧
    decodeBits (0b00000010#8 ++ 0x0123456789ABCDE2#64) = .ok (.descFp16 0x0123456789ABCDE2) ∧
    decodeBits (0b00000011#8 ++ 0x0123456789ABCDE3#64) = .ok (.descFp32 0x0123456789ABCDE3) ∧
    decodeBits (0b00000100#8 ++ 0x0123456789ABCDE4#64) = .ok (.descFp64 0x0123456789ABCDE4) := by decide

theorem test_decode_widen :
    decodeBits (0b00001000#8 ++ 0x0123456789ABCDF0#64) = .ok (.widenBf8 0x0123456789ABCDF0) ∧
    decodeBits (0b00001001#8 ++ 0x0123456789ABCDF1#64) = .ok (.widenBf16 0x0123456789ABCDF1) ∧
    decodeBits (0b00001010#8 ++ 0x0123456789ABCDF2#64) = .ok (.widenFp16 0x0123456789ABCDF2) ∧
    decodeBits (0b00001011#8 ++ 0x0123456789ABCDF3#64) = .ok (.widenFp32 0x0123456789ABCDF3) ∧
    decodeBits (0b00001100#8 ++ 0x0123456789ABCDF4#64) = .ok (.widenFp64 0x0123456789ABCDF4) := by decide

theorem test_decode_narrow :
    decodeBits (0b00010000#8 ++ 0x0123456789ABCE00#64) = .ok (.narrowBf8 0x0123456789ABCE00) ∧
    decodeBits (0b00010001#8 ++ 0x0123456789ABCE01#64) = .ok (.narrowBf16 0x0123456789ABCE01) ∧
    decodeBits (0b00010010#8 ++ 0x0123456789ABCE02#64) = .ok (.narrowFp16 0x0123456789ABCE02) ∧
    decodeBits (0b00010011#8 ++ 0x0123456789ABCE03#64) = .ok (.narrowFp32 0x0123456789ABCE03) ∧
    decodeBits (0b00010100#8 ++ 0x0123456789ABCE04#64) = .ok (.narrowFp64 0x0123456789ABCE04) := by decide

theorem test_decode_crack :
    decodeBits (0b00011000#8 ++ 0x0123456789ABCE10#64) = .ok (.crackBf8 0x0123456789ABCE10) ∧
    decodeBits (0b00011001#8 ++ 0x0123456789ABCE11#64) = .ok (.crackBf16 0x0123456789ABCE11) ∧
    decodeBits (0b00011010#8 ++ 0x0123456789ABCE12#64) = .ok (.crackFp16 0x0123456789ABCE12) ∧
    decodeBits (0b00011011#8 ++ 0x0123456789ABCE13#64) = .ok (.crackFp32 0x0123456789ABCE13) ∧
    decodeBits (0b00011100#8 ++ 0x0123456789ABCE14#64) = .ok (.crackFp64 0x0123456789ABCE14) := by decide

theorem test_decode_eps :
    decodeBits (0b00100000#8 ++ 0x0123456789ABCE20#64) = .ok (.epsBf8 0x0123456789ABCE20) ∧
    decodeBits (0b00100001#8 ++ 0x0123456789ABCE21#64) = .ok (.epsBf16 0x0123456789ABCE21) ∧
    decodeBits (0b00100010#8 ++ 0x0123456789ABCE22#64) = .ok (.epsFp16 0x0123456789ABCE22) ∧
    decodeBits (0b00100011#8 ++ 0x0123456789ABCE23#64) = .ok (.epsFp32 0x0123456789ABCE23) ∧
    decodeBits (0b00100100#8 ++ 0x0123456789ABCE24#64) = .ok (.epsFp64 0x0123456789ABCE24) := by decide

/-- The illegal commands of 95_test_vectors.md section 2.8. -/
theorem test_illegal_commands :
    ([0x05, 0x07, 0x0D, 0x25, 0x28, 0x30, 0x3F, 0x40, 0x88, 0xFF] : List Command).map (fun c => ask ⟨c, 0x42⟩) =
      List.replicate 10 .illegalRequest := by decide

/-- R72: an illegal command is reported whatever the operand holds. -/
theorem test_illegal_before_out_of_range : ask ⟨0x0D, 0xFFFFFFFFFFFFFFFF⟩ = .illegalRequest := by decide

theorem test_decode_errors :
    decode ⟨0x88, 0x42⟩ = .error (.highBits 2) ∧ decode ⟨0x2D, 0⟩ = .error (.reservedOperation 5) ∧
      decode ⟨0x25, 0⟩ = .error (.reservedFormat 5) := by decide

/-- A table row's 8 bits are the command; an operand's 64 bits follow. -/
theorem test_table_word :
    decodeTableWord 8 0b00010001 = some (.narrowBf16 0) ∧
      decodeTableWord 72 (0x34000001 * 2 ^ 8 + 0b00010001) = some (.narrowBf16 0x34000001) ∧
      decodeTableWord 8 0b00101000 = none := by decide

/-! Well-formedness: the smoke test, with an ill-formed operand for each check. -/

theorem test_wellFormed_patterns :
    (Instr.widenBf8 0xFF).wellFormed = true ∧ (Instr.widenBf8 0x100).wellFormed = false ∧
      (Instr.crackBf16 0xFFFF).wellFormed = true ∧ (Instr.crackBf16 0x10000).wellFormed = false ∧
      (Instr.crackFp16 0x10000).wellFormed = false ∧ (Instr.widenFp32 0x100000000).wellFormed = false ∧
      (Instr.widenFp64 0xFFFFFFFFFFFFFFFF).wellFormed = true := by decide

theorem test_wellFormed_values :
    (Instr.narrowBf8 0x100).wellFormed = true ∧ (Instr.narrowBf8 0x10000).wellFormed = false ∧
      (Instr.narrowBf16 0x10000).wellFormed = true ∧ (Instr.narrowBf16 0x100000000).wellFormed = false ∧
      (Instr.descBf8 0xFFFFFFFFFFFFFFFF).wellFormed = true := by decide

/-! The instructions. -/

/-- 95_test_vectors.md section 1.1; the operand is ignored. -/
theorem test_desc :
    ([0x00, 0x01, 0x02, 0x03, 0x04] : List Command).map (fun c => ask ⟨c, 0xDEADBEEF00000001⟩) =
      [.desc 8 1 5 2 15, .desc 16 1 8 7 127, .desc 16 1 5 10 15, .desc 32 1 8 23 127, .desc 64 1 11 52 1023] := by
  decide

/-- 95_test_vectors.md section 2.2. -/
theorem test_widen_bf8 :
    [0x00, 0x80, 0x42, 0x01, 0x7B, 0x7C, 0xFC, 0x7D, 0xFF].map (fun d => ask ⟨0x08, d⟩) =
      [.widen 0x0000, .widen 0x8000, .widen 0x4200, .widen 0x0100, .widen 0x7B00, .widen 0x7C00, .widen 0xFC00,
       .widen 0x7D00, .widen 0xFF00] := by decide

/-- 95_test_vectors.md section 2.2. -/
theorem test_widen_bf16 :
    [0x0000, 0x8000, 0x4040, 0x4200, 0x0001, 0x7F7F, 0xFF80, 0x7FA0, 0xFFFF].map (fun d => ask ⟨0x09, d⟩) =
      [.widen 0x00000000, .widen 0x80000000, .widen 0x40400000, .widen 0x42000000, .widen 0x00010000, .widen
       0x7F7F0000, .widen 0xFF800000, .widen 0x7FA00000, .widen 0xFFFF0000] := by decide

/-- 95_test_vectors.md section 2.3. -/
theorem test_widen_native :
    [ask ⟨0x0A, 0x7C01⟩, ask ⟨0x0B, 0xFFFFFFFF⟩, ask ⟨0x0C, 0xFFFFFFFFFFFFFFFF⟩] =
      [.widen 0x7C01, .widen 0xFFFFFFFF, .widen 0xFFFFFFFFFFFFFFFF] := by decide

/-- R106 and 95_test_vectors.md section 2.4: the rounding branch. -/
theorem test_narrow_bf8_rounding :
    [0x0000, 0x8000, 0x3C00, 0x4248, 0x3C80, 0x3C81, 0x3D7F, 0x3D80, 0x3FFF, 0x7B7F, 0x7B80, 0xFBFF, 0x7C00,
     0xFC00, 0x0080, 0x0081, 0x0180, 0x8080, 0x8081].map (fun d => ask ⟨0x10, d⟩) =
      [.narrow 0x00, .narrow 0x80, .narrow 0x3C, .narrow 0x42, .narrow 0x3C, .narrow 0x3D, .narrow 0x3D, .narrow
       0x3E, .narrow 0x40, .narrow 0x7B, .narrow 0x7C, .narrow 0xFC, .narrow 0x7C, .narrow 0xFC, .narrow 0x00,
       .narrow 0x01, .narrow 0x02, .narrow 0x80, .narrow 0x81] := by decide

/-- R106: the NaN branch. -/
theorem test_narrow_bf8_nan :
    [0x7E00, 0x7D00, 0x7FFF, 0x7C01, 0x7CFF, 0xFC01].map (fun d => ask ⟨0x10, d⟩) =
      [.narrow 0x7E, .narrow 0x7D, .narrow 0x7F, .narrow 0x7D, .narrow 0x7D, .narrow 0xFD] := by decide

/-- R107 and 95_test_vectors.md section 2.5: the rounding branch. -/
theorem test_narrow_bf16_rounding :
    [0x00000000, 0x80000000, 0x40490FDB, 0x3DCCCCCD, 0x34000001, 0x34008000, 0x34008001, 0x34017FFF, 0x34018000,
     0x3FFFFFFF, 0x7F7F7FFF, 0x7F7F8000, 0xFF7FFFFF, 0x7F800000, 0x00008000, 0x00008001, 0x007FFFFF, 0x80008001].map (fun d => ask ⟨0x11, d⟩) =
      [.narrow 0x0000, .narrow 0x8000, .narrow 0x4049, .narrow 0x3DCD, .narrow 0x3400, .narrow 0x3400, .narrow
       0x3401, .narrow 0x3401, .narrow 0x3402, .narrow 0x4000, .narrow 0x7F7F, .narrow 0x7F80, .narrow 0xFF80,
       .narrow 0x7F80, .narrow 0x0000, .narrow 0x0001, .narrow 0x0080, .narrow 0x8001] := by decide

/-- R107: the NaN branch; the forced bit is bit 5 (C1, log 6). -/
theorem test_narrow_bf16_nan :
    [0x7FC00000, 0x7FFFFFFF, 0xFFFFFFFF, 0x7F810000, 0x7F800001, 0x7F80FFFF, 0xFF800001].map (fun d => ask ⟨0x11, d⟩) =
      [.narrow 0x7FC0, .narrow 0x7FFF, .narrow 0xFFFF, .narrow 0x7F81, .narrow 0x7FA0, .narrow 0x7FA0, .narrow
       0xFFA0] := by decide

/-- 95_test_vectors.md section 2.6: nothing is rounded and nothing is forced. -/
theorem test_narrow_native :
    [ask ⟨0x12, 0x7C01⟩, ask ⟨0x13, 0x34000001⟩, ask ⟨0x13, 0x7F800001⟩, ask ⟨0x14, 0x7FF0000000000001⟩] =
      [.narrow 0x7C01, .narrow 0x34000001, .narrow 0x7F800001, .narrow 0x7FF0000000000001] := by decide

/-- 95_test_vectors.md section 2.7. -/
theorem test_crack :
    [ask ⟨0x18, 0x7D⟩, ask ⟨0x18, 0xFF⟩, ask ⟨0x19, 0x4200⟩, ask ⟨0x19, 0xFFFF⟩, ask ⟨0x1A, 0x4200⟩, ask ⟨0x1A, 0xFFFF⟩,
        ask ⟨0x1B, 0x40490FDB⟩, ask ⟨0x1B, 0xFFFFFFFF⟩, ask ⟨0x1C, 0x400921FB54442D18⟩, ask ⟨0x1C, 0x8000000000000000⟩] =
      [.crack 0 0x1F 0x1, .crack 1 0x1F 0x3, .crack 0 0x84 0x00, .crack 1 0xFF 0x7F, .crack 0 0x10 0x200,
        .crack 1 0x1F 0x3FF, .crack 0 0x80 0x490FDB, .crack 1 0xFF 0x7FFFFF, .crack 0 0x400 0x921FB54442D18,
        .crack 1 0 0] := by decide

/-- 95_test_vectors.md section 1.5; the operand is ignored. -/
theorem test_eps :
    ([0x20, 0x21, 0x22, 0x23, 0x24] : List Command).map (fun c => ask ⟨c, 0xFFFFFFFFFFFFFFFF⟩) =
      [.eps 0x34, .eps 0x3C00, .eps 0x1400, .eps 0x34000000, .eps 0x3CB0000000000000] := by decide

/-- The smallest failing operands (R171). -/
theorem test_out_of_range :
    [ask ⟨0x08, 0x100⟩, ask ⟨0x08, 0x8000000000000042⟩, ask ⟨0x09, 0x10000⟩, ask ⟨0x0A, 0x10000⟩, ask ⟨0x0B, 0x100000000⟩,
        ask ⟨0x18, 0x100⟩, ask ⟨0x19, 0x10000⟩, ask ⟨0x1A, 0x10000⟩, ask ⟨0x1B, 0x100000000⟩, ask ⟨0x10, 0x10000⟩,
        ask ⟨0x11, 0x100000000⟩, ask ⟨0x12, 0x10000⟩, ask ⟨0x13, 0x100000000⟩] = List.replicate 13 .outOfRange := by
  decide

/-! The step. -/

/-- A step answers the oldest request and keeps the others and the earlier responses. -/
theorem test_step_answers_oldest :
    step ⟨[⟨0x10, 0x4248⟩, ⟨0x25, 0⟩], [.eps 0x34]⟩ = .next ⟨[⟨0x25, 0⟩], [.eps 0x34, .narrow 0x42]⟩ := by rfl

theorem test_step_illegal : step ⟨[⟨0x25, 0⟩], [.eps 0x34]⟩ = .next ⟨[], [.eps 0x34, .illegalRequest]⟩ := by rfl

theorem test_step_of_table_word : step (State.reset.withFetchWord 8 0x20) = .next ⟨[], [.eps 0x34]⟩ := by rfl

/-! The host. -/

/-- P3 (95_test_vectors.md section 3.3): a NaN into bf8. -/
theorem test_P3 : encodeSequence .bf8 0x7C01 = .ok ⟨0x7D, 0x7D00, 0, 0x1F, 1⟩ := by decide

/-- P2 (section 3.2), as assembly lines. -/
theorem test_P2 :
    runLines (encodeLines .bf16 (.literal 0x34000001) 0 1 2 3 4) [] =
      .finished [(2, 0), (3, 0x68), (4, 0), (1, 0x34000000), (0, 0x3400)] := by decide

/-- P4 (section 3.4): the host stops at line 1 and reports `OutOfRange` with the literal and the format. -/
theorem test_P4 :
    runLines (decodeLines .bf8 (.literal 0x100) 0 1 2 3) [] =
        .failed [] ⟨[0], .widen, .bf8, some (.literal 0x100)⟩ 0x100 .outOfRange ∧
      convert .bf8 ['0', 'x', '1', '0', '0'] = .error ⟨.outOfRange, ['0', 'x', '1', '0', '0'], .bf8⟩ := by decide

/-- R74: the operand of DESC and EPS lines is 0, and a variable's is what it holds. -/
theorem test_line_operands :
    (⟨[0], .eps, .fp64, none⟩ : Line).operand [(0, 7)] = .ok 0 ∧
      (⟨[1], .widen, .fp16, some (.var 0)⟩ : Line).operand [(0, 7)] = .ok 7 ∧
      (⟨[1], .widen, .fp16, some (.var 2)⟩ : Line).operand [(0, 7)] = .error 2 := by decide

/-- R74: the written forms. -/
theorem test_written :
    written ⟨0x0A, 0x4200⟩ =
        ['0', 'A', ':', '0', '0', '0', '0', '0', '0', '0', '0', '0', '0', '0', '0', '4', '2', '0', '0'] ∧
      Line.text ⟨[1, 2, 3], .crack, .fp16, some (.literal 0x4200)⟩ =
        ['(', 'h', '1', ',', ' ', 'h', '2', ',', ' ', 'h', '3', ')', ' ', '=', ' ', 'C', 'R', 'A', 'C', 'K', '.', 'f', 'p',
          '1', '6', ' ', '0', 'x', '4', '2', '0', '0'] := by decide

/-- R141, R142: separators and case. -/
theorem test_parse_epsilon :
    parse .bf8 [' ', ' ', 'E', 'p', '_', 's', 'i', 'l', 'o', 'n', '_'] = .ok ⟨0x34, 0x3400, 0, 0x0D, 0⟩ := by decide

/-- R147: the prefixes, and the plain decimal. -/
theorem test_parse_integers :
    parse .bf8 ['0', 'X', '4', 'a'] = decodeSequence .bf8 0x4A ∧
      parse .bf8 ['0', 'b', '1', '0', '1'] = decodeSequence .bf8 5 ∧
      parse .bf8 ['2', '5', '5'] = decodeSequence .bf8 255 ∧ parse .bf8 ['2', '5', '6'] = .error .outOfRange ∧
      parse .fp64 ['-', '1'] = .error .outOfRange := by decide

/-- R144: the source's hex-float example, and a signed one. -/
theorem test_parse_hex_float :
    parseValue ['0', 'x', '1', '.', '8', 'p', '1'] = some (.finite false 3) ∧
      parseValue ['-', '0', 'X', '.', '8', 'P', '-', '1'] = some (.finite true (1 / 4)) := by decide +kernel

/-- 95_test_vectors.md section 1.2, the value path. -/
theorem test_parse_values :
    (parse .fp32 ['3', '.', '0']).map Decoded.pattern = .ok 0x40400000 ∧
      (parse .bf16 ['0', 'x', '1', '.', '8', 'p', '1']).map Decoded.pattern = .ok 0x4040 ∧
      (parse .fp64 ['i', 'n', 'f']).map Decoded.pattern = .ok 0x7FF0000000000000 := by decide +kernel

/-- R155: the three examples. -/
theorem test_binary_string :
    binaryString .bf8 0 0x10 2 = ['0', ' ', '1', '0', '0', '0', '0', ' ', '1', '0'] ∧
      binaryString .fp16 0 0x10 0x200 =
        ['0', ' ', '1', '0', '0', '0', '0', ' ', '1', '0', '0', '0', '0', '0', '0', '0', '0', '0'] ∧
      binaryString .bf16 0 0x80 0x40 =
        ['0', ' ', '1', '0', '0', '0', '0', '0', '0', '0', ' ', '1', '0', '0', '0', '0', '0', '0'] := by decide

/-- R159: fp16 `0x4200` shows `0x200`, whichever way the host pads. -/
theorem test_fraction_string : fractionString .fp16 0x200 = ['0', 'x', '2', '0', '0'] := by
  unfold fractionString
  cases Config.fractionPadded .fp16 <;> decide

/-- R157: ten zeros go for bf8. -/
theorem test_strip :
    stripHexFloat .bf8 (['0', 'x', '1', '.', '8', '0', '0'] ++ List.replicate 10 '0' ++ ['p', '+', '1']) =
      ['0', 'x', '1', '.', '8', '0', '0', 'p', '+', '1'] := by decide

/-- R28: values of patterns in 95_test_vectors.md section 2.2. -/
theorem test_real_values :
    realValue .bf8 0x34#8 = .finite false (1 / 4) ∧ realValue .bf8 0x7B#8 = .finite false 57344 ∧
      realValue .bf8 0x01#8 = .finite false (1 / 65536) ∧ realValue .bf8 0x80#8 = .finite true 0 ∧
      realValue .bf8 0xFC#8 = .inf true ∧ realValue .bf8 0x7D#8 = .nan := by decide +kernel

/-! Witnesses: states and operands that meet the hypotheses of the statements. -/

theorem witness_IllegalCommandsAreAnsweredIllegalRequest :
    LegalCommand 0x24 ∧ ¬ LegalCommand 0x25 ∧ ¬ LegalCommand 0x28 ∧ ¬ LegalCommand 0x40 ∧
      (⟨[⟨0x25, 1⟩, ⟨0x24, 1⟩], []⟩ : State).requests = ⟨0x25, 1⟩ :: [⟨0x24, 1⟩] := by
  unfold LegalCommand
  decide

theorem witness_EncodingRoundTripsBothWays :
    decodeBits (0x24#8 ++ 0xFFFFFFFFFFFFFFFF#64) = .ok (.epsFp64 0xFFFFFFFFFFFFFFFF) := by decide

theorem witness_TableWordRunsNext :
    decodeTableWord 8 0x00 = some (.descBf8 0) ∧ decodeTableWord 8 0x24 = some (.epsFp64 0) := by decide

theorem witness_StepRunsDecodedInstruction :
    (⟨[⟨0x08, 0x42⟩, ⟨0x25, 0⟩], []⟩ : State).requests = ⟨0x08, 0x42⟩ :: [⟨0x25, 0⟩] ∧
      decode ⟨0x08, 0x42⟩ = .ok (.widenBf8 0x42) := by decide

theorem witness_StepWithoutRequestIdles : (⟨[], [.eps 0x34]⟩ : State).requests = [] := by decide

theorem witness_ResponseDependsOnRequestAlone :
    (⟨[⟨0xFF, 7⟩, ⟨0x08, 0x42⟩], [.eps 0x34]⟩ : State).requests = ⟨0xFF, 7⟩ :: [⟨0x08, 0x42⟩] := by decide

theorem witness_ReorderingKeepsEachResponse :
    ([⟨0x08, 0x42⟩, ⟨0x25, 0⟩] : List Request).Perm [⟨0x25, 0⟩, ⟨0x08, 0x42⟩] := by decide

theorem witness_StepNeverChangesGivenResponses :
    step ⟨[⟨0x08, 0x42⟩], [.eps 0x34]⟩ = .next ⟨[], [.eps 0x34, .widen 0x4200]⟩ := by rfl

theorem witness_StepKeepsResponsesLegal :
    (⟨[⟨0x08, 0x42⟩], [.eps 0x34, .illegalRequest, .outOfRange]⟩ : State).Inv
        [⟨0x20, 0⟩, ⟨0x25, 0⟩, ⟨0x08, 0x100⟩] ∧
      step ⟨[⟨0x08, 0x42⟩], [.eps 0x34, .illegalRequest, .outOfRange]⟩ =
        .next ⟨[], [.eps 0x34, .illegalRequest, .outOfRange, .widen 0x4200]⟩ :=
  ⟨.cons ⟨rfl, rfl⟩ (.cons rfl (.cons rfl .nil)), rfl⟩

/-- The invariant tells formats and operations apart: a wrong response to the instruction is not legal. -/
theorem test_illegal_responses :
    ¬ (Response.eps 0x3C00).legalFor (.epsBf8 0) ∧ ¬ (Response.widen 0x4201).legalFor (.widenBf8 0x42) ∧
      ¬ (Response.narrow 0x100).legalFor (.narrowBf8 0) ∧ ¬ (Response.crack 0 0x20 0).legalFor (.crackBf8 0) ∧
      ¬ Response.outOfRange.legalFor (.widenBf8 0xFF) ∧ ¬ (Response.widen 0).legalFor (.widenBf8 0x100) := by
  simp only [Response.legalFor]
  decide

theorem witness_ResponseIsLegalForItsInstruction :
    (⟨[⟨0x10, 0x10000⟩, ⟨0x25, 0⟩], []⟩ : State).requests = ⟨0x10, 0x10000⟩ :: [⟨0x25, 0⟩] ∧
      decode ⟨0x10, 0x10000⟩ = .ok (.narrowBf8 0x10000) := by decide

/-- The operand of WIDEN and CRACK on both sides of each check. -/
theorem witness_pattern_checks :
    ((0xFF#64).extractLsb' 8 56 = 0#56 ∧ (0x100#64).extractLsb' 8 56 ≠ 0#56) ∧
      ((0xFFFF#64).extractLsb' 16 48 = 0#48 ∧ (0x10000#64).extractLsb' 16 48 ≠ 0#48) ∧
      ((0xFFFFFFFF#64).extractLsb' 32 32 = 0#32 ∧ (0x100000000#64).extractLsb' 32 32 ≠ 0#32) := by decide

/-- The four clauses of the statement, in its order. -/
theorem witness_NarrowBf8RoundsOrForces :
    (0x10000#64).extractLsb' 16 48 ≠ 0#48 ∧
    ((0x7D00#64).extractLsb' 16 48 = 0#48 ∧ (0x7D00#16).extractLsb' 10 5 = 0x1F#5 ∧
      (0x7D00#16).extractLsb' 0 10 ≠ 0#10 ∧ ((0x7D00#16).extractLsb' 8 8).extractLsb' 0 2 ≠ 0#2) ∧
    ((0x7C01#64).extractLsb' 16 48 = 0#48 ∧ (0x7C01#16).extractLsb' 10 5 = 0x1F#5 ∧
      (0x7C01#16).extractLsb' 0 10 ≠ 0#10 ∧ ((0x7C01#16).extractLsb' 8 8).extractLsb' 0 2 = 0#2) ∧
    ((0x7C00#64).extractLsb' 16 48 = 0#48 ∧
      ¬ ((0x7C00#16).extractLsb' 10 5 = 0x1F#5 ∧ (0x7C00#16).extractLsb' 0 10 ≠ 0#10)) := by decide

theorem witness_NarrowBf16RoundsOrForces :
    (0x100000000#64).extractLsb' 32 32 ≠ 0#32 ∧
    ((0x7F810000#64).extractLsb' 32 32 = 0#32 ∧ (0x7F810000#32).extractLsb' 23 8 = 0xFF#8 ∧
      (0x7F810000#32).extractLsb' 0 23 ≠ 0#23 ∧ ((0x7F810000#32).extractLsb' 16 16).extractLsb' 0 7 ≠ 0#7) ∧
    ((0x7F800001#64).extractLsb' 32 32 = 0#32 ∧ (0x7F800001#32).extractLsb' 23 8 = 0xFF#8 ∧
      (0x7F800001#32).extractLsb' 0 23 ≠ 0#23 ∧ ((0x7F800001#32).extractLsb' 16 16).extractLsb' 0 7 = 0#7) ∧
    ((0x7F800000#64).extractLsb' 32 32 = 0#32 ∧
      ¬ ((0x7F800000#32).extractLsb' 23 8 = 0xFF#8 ∧ (0x7F800000#32).extractLsb' 0 23 ≠ 0#23)) := by decide

theorem witness_OutOfRangeExactlyFromThreshold :
    (∃ n, failureThreshold (.narrowBf8 0x10000) = some n ∧ n ≤ (Instr.narrowBf8 0x10000).data.toNat) ∧
      ¬ (∃ n, failureThreshold (.narrowBf8 0xFFFF) = some n ∧ n ≤ (Instr.narrowBf8 0xFFFF).data.toNat) ∧
      decode ⟨0x25, 0⟩ = .error (.reservedFormat 5) := by
  refine ⟨⟨_, rfl, by decide⟩, ?_, by decide⟩
  rintro ⟨n, h, hn⟩
  cases h
  exact absurd hn (by decide)

theorem witness_WidenInjectiveOntoZeroTailed :
    widen .bf8 0x42#8 = 0x4200#16 ∧ (0x4200#16).setWidth 8 = 0#8 ∧ (0x4201#16).setWidth 8 ≠ 0#8 := by decide

/-- Both values of the conditional, for both narrow formats. -/
theorem witness_NarrowKeepsNaN :
    Format.bf8.isNarrow = true ∧ isNaN .fp16 0x7D00#16 = true ∧ isNaN .fp16 0x7C01#16 = true ∧
      Format.bf16.isNarrow = true ∧ isNaN .fp32 0x7F810000#32 = true ∧ isNaN .fp32 0x7F800001#32 = true ∧
      (fractionField .fp16 0x7C01#16).toNat / 2 ^ Format.bf8.discardedBits = 0 ∧
      (fractionField .fp16 0x7D00#16).toNat / 2 ^ Format.bf8.discardedBits = 1 := by decide

/-- The four cases: below half, above it, and the two ties. -/
theorem witness_RoundingHasFourCases :
    Format.bf8.isNarrow = true ∧
      ([0x3C7F, 0x3C81, 0x3C80, 0x3D80] : List (BitVec 16)).map (isNaN .fp16) = [false, false, false, false] ∧
      ([0x3C7F, 0x3C81, 0x3C80, 0x3D80] : List (BitVec 16)).map (fun v => (v.toNat % 256, v.toNat / 256 % 2)) =
        [(127, 0), (129, 0), (128, 0), (128, 1)] := by decide

/-- The thresholds of bf8: `0x7B80` is 61440, `0x7B7F` below it, `0x0080` half the smallest subnormal, `0x0081` above it; `0x3D80`
is a tie between the bf8 patterns `0x3D` and `0x3E`. -/
theorem witness_NarrowRoundsToNearestEven :
    Format.bf8.isNarrow = true ∧
      ([0x7B80, 0x7B7F, 0x0080, 0x0081, 0x3D80] : List (BitVec 16)).all
        (fun v => !isNaN .fp16 v && !isInf .fp16 v) = true ∧
      magnitude .fp16 0x7B80#16 = 2 ^ 16 - 2 ^ 12 ∧ magnitude .fp16 0x7B7F#16 < 2 ^ 16 - 2 ^ 12 ∧
      magnitude .fp16 0x0080#16 = 1 / 2 ^ 17 ∧ magnitude .fp16 0x0081#16 > 1 / 2 ^ 17 ∧
      isNaN .bf8 0x3D#8 = false ∧ isInf .bf8 0x3D#8 = false ∧
      |magnitude .bf8 0x3E#8 - magnitude .fp16 0x3D80#16| = |magnitude .bf8 0x3D#8 - magnitude .fp16 0x3D80#16| ∧
      magnitude .bf8 0x3D#8 ≠ magnitude .bf8 0x3E#8 := by decide +kernel

theorem witness_NarrowIsMonotone :
    Format.bf8.isNarrow = true ∧ isNaN .fp16 0x3C80#16 = false ∧ isNaN .fp16 0x7C00#16 = false ∧
      signField .fp16 0x3C80#16 = signField .fp16 0x7C00#16 ∧ (0x3C80#16).toNat ≤ (0x7C00#16).toNat := by decide

theorem witness_RoundingNeverCarriesOut :
    Format.bf16.isNarrow = true ∧ isNaN .fp32 0xFF800000#32 = false ∧ Format.bf8.isNarrow = true ∧
      isNaN .fp16 0xFBFF#16 = false := by decide

theorem witness_CodecKeepsSignAndInfinity :
    isInf Format.bf8.carrier 0xFC00#16 = true ∧ isInf Format.fp64.carrier 0x7FF0000000000000#64 = true := by decide

theorem witness_CrackCommutesWithWiden : Format.bf8.isNarrow = true ∧ Format.bf16.isNarrow = true := by decide

theorem witness_DecodeSequenceYieldsValueAndFields :
    2 ^ Format.bf8.totalBits ≤ (0x100#64).toNat ∧ 2 ^ Format.fp32.totalBits ≤ (0x100000000#64).toNat := by decide

/-- Each clause: a number, a set variable, the variable that DECODE writes, an unset one, and both failures. -/
theorem witness_PseudoInstructionsRunTheirSequences :
    [0, 1, 2, 3, 4].Nodup ∧
      (Source.value [(0, 0x42)] (.var 0) = .ok 0x42 ∧ decodeSequence .bf8 0x42 = .ok ⟨0x42, 0x4200, 0, 0x10, 2⟩ ∧
        Source.var 0 ≠ .var 1) ∧
      (Source.value [(1, 0)] (.var 1) = .ok 0 ∧ decodeSequence .bf8 0 = .ok ⟨0, 0, 0, 0, 0⟩) ∧
      (Source.value [(1, 0x42)] (.var 1) = .ok 0x42 ∧ (ask (requestOf .crack .bf8 0x4200)).status ≠ 0) ∧
      encodeSequence .bf8 0x100 = .ok ⟨0x01, 0x0100, 0, 0, 1⟩ ∧
      (Source.value [] (.literal 0x100) = .ok 0x100 ∧ decodeSequence .bf8 0x100 = .error .outOfRange) ∧
      (Source.value [] (.literal 0x10000) = .ok 0x10000 ∧ encodeSequence .bf8 0x10000 = .error .outOfRange) ∧
      Source.value [(0, 0)] (.var 5) = .error 5 := by decide

theorem witness_HostStopsAtFirstFailure :
    (⟨[0], .widen, .bf8, some (.var 5)⟩ : Line).operand [(5, 0x100)] = .ok 0x100 ∧
      (ask (requestOf .widen .bf8 0x100)).status ≠ 0 := by decide

theorem witness_FailureIsReportedWithLiteralAndFormat :
    parse .bf8 ['1', 'e', '5'] = .error .malformedLiteral ∧
      convert .bf8 ['1', 'e', '_', '5'] = .error ⟨.malformedLiteral, ['1', 'e', '_', '5'], .bf8⟩ := by decide

theorem witness_HostToCarrierIsExactOnCarrierValues :
    isNaN Format.bf8.carrier 0x3C01#16 = false ∧ isNaN Format.fp64.carrier 0xFFF0000000000000#64 = false := by decide

/-- Both clauses at the ends of their ranges, and the answers of NARROW and EPS. -/
theorem witness_IntegerLiteralsAreRangeChecked :
    [['2', '5', '5'], ['2', '5', '6'], ['0'], ['-', '1']].map (fun l => (isEpsilon (normalise l), isValueLiteral (normalise l),
        parseInteger (normalise l))) =
      [(false, false, some 255), (false, false, some 256), (false, false, some 0), (false, false, some (-1))] ∧
      ask (requestOf .narrow .bf8 0x7C01) = .narrow 0x7D ∧ ask (requestOf .eps .bf8 0) = .eps 0x34 := by decide

theorem witness_HexFloatStripRule : 'p' ∉ ['0', 'x', '1', '.', '8', '0'] := by decide

theorem witness_ExactLiteralReparsesToItsPattern :
    isNaN .fp32 0x40400000#32 = false ∧ isEpsilon (normalise ['3', '.', '0']) = false ∧
      isValueLiteral (normalise ['3', '.', '0']) = true ∧
      parseValue (normalise ['3', '.', '0']) = some (realValue .fp32 0x40400000#32) ∧
      isNaN .bf8 0x42#8 = false ∧ parseValue (normalise ['0', 'x', '1', '.', '8', 'p', '1']) = some (realValue .bf8 0x42#8) := by
  decide +kernel

end Sys2Proof.Tests
end

section
/-! The response of every instruction, as a function of the instruction alone. -/

namespace Sys2Proof.Machine

/-- The response that the instruction's family gives for its format and operand (R11): no state takes part in it. -/
def responseOf (i : Instr) : Response :=
  match i.op with
  | .desc => descResponse i.format
  | .widen => widenResponse i.format i.data
  | .narrow => narrowResponse i.format i.data
  | .crack => crackResponse i.format i.data
  | .eps => epsResponse i.format

theorem exec_eq_answer (i : Instr) (s : State) : exec i s = .next (s.answer (responseOf i)) := by
  cases i <;> rfl

theorem ask_of_decode_ok {r : Request} {i : Instr} (hd : decode r = .ok i) : ask r = responseOf i :=
  ask_of_exec hd (exec_eq_answer i)

theorem ask_of_decode_error {r : Request} {e : DecodeError} (hd : decode r = .error e) : ask r = .illegalRequest := by
  simp [ask, step, hd]

end Sys2Proof.Machine

namespace Sys2Proof.Proofs

open Sys2Proof.Machine

/-- Settles O7: both ways to answer a request, running the instruction it decodes to and refusing an illegal command, append
one response that is a function of the request, and so the response `ask` gives. -/
theorem responseDependsOnRequestAlone : Obligations.ResponseDependsOnRequestAlone := by
  intro s r rest hs
  rcases step_cases s with ⟨hnil, -⟩ | ⟨r', rest', hcons, hstep⟩
  · simp [hs] at hnil
  · obtain ⟨rfl, rfl⟩ := List.cons.inj (hs.symm.trans hcons)
    rcases hstep with ⟨i, hd, hstep⟩ | ⟨e, hd, hstep⟩
    · rw [hstep, exec_eq_answer, ask_of_decode_ok hd]
      rfl
    · rw [hstep, ask_of_decode_error hd]
      rfl

end Sys2Proof.Proofs
end

section
/-! The state under a step, and the format table. -/

namespace Sys2Proof

/-- The bias of R24: half of the exponent's range, less one. -/
theorem Format.bias_eq (f : Format) : f.bias = 2 ^ (f.exponentBits - 1) - 1 := by cases f <;> rfl

end Sys2Proof

namespace Sys2Proof.Proofs

open Sys2Proof.Machine

/-- Settles O11: an idle step adds nothing and takes nothing; any other step takes the oldest request and appends the one
response to it (O7). -/
theorem stepNeverChangesGivenResponses : Obligations.StepNeverChangesGivenResponses := by
  intro s t hstep
  rcases step_cases s with ⟨hs, hidle⟩ | ⟨r, rest, hs, -⟩
  · obtain rfl := Host.Outcome.next.inj (hidle.symm.trans hstep)
    exact ⟨⟨[], by simp [hs]⟩, by simp [hs]⟩
  · have hnext := responseDependsOnRequestAlone s r rest hs
    obtain rfl := Host.Outcome.next.inj (hnext.symm.trans hstep)
    exact ⟨⟨[ask r], by simp [hs]⟩, by simp [hs]⟩

/-- Settles O27: the rows are read off the table; the two equations hold row by row. -/
theorem formatTableRows : Obligations.FormatTableRows := by
  refine ⟨rfl, fun f => ⟨?_, f.bias_eq⟩⟩
  have htotal := f.totalBits_eq
  omega

end Sys2Proof.Proofs
end

section
/-! Runs of several steps, and the responses of each host. -/

namespace Sys2Proof.Machine

/-- A run of `k` steps answers the oldest `k` requests in their order, each as it is answered alone; steps beyond the pending
requests idle. -/
theorem core_run_eq (k : Nat) (s : State) :
    Sys2Proof.core.run k s =
      .next { requests := s.requests.drop k, responses := s.responses ++ (s.requests.take k).map ask } := by
  induction k generalizing s with
  | zero => simp [core_run_zero]
  | succ k ih =>
    rcases step_cases s with ⟨hs, hidle⟩ | ⟨r, rest, hs, -⟩
    · rw [core_run_succ k hidle, ih]
      simp [hs]
    · rw [core_run_succ k (Proofs.responseDependsOnRequestAlone s r rest hs), ih]
      simp [hs]

/-- As many steps as there are requests answer all of them, one response each. -/
theorem core_run_length (requests : List Request) :
    Sys2Proof.core.run requests.length { requests := requests, responses := [] } =
      .next { requests := [], responses := requests.map ask } := by
  simp [core_run_eq]

end Sys2Proof.Machine

namespace Sys2Proof.Proofs

open Sys2Proof.Machine

/-- Settles O9: the run of all requests gives `ask` of each, in place, so the response at a host's position is the one to the
request that it issued there, and choosing a host's positions before or after answering is the same. -/
theorem eachHostGetsItsResponsesInOrder : Obligations.EachHostGetsItsResponsesInOrder := by
  intro issued
  refine ⟨(issued.map Prod.snd).map ask, ?_, by simp, fun host => ?_⟩
  · simpa using core_run_length (issued.map Prod.snd)
  · have hpaired : (issued.map Prod.fst).zip ((issued.map Prod.snd).map ask) = issued.map fun x => (x.1, ask x.2) := by
      rw [List.map_map, List.zip_map']
      rfl
    rw [hpaired, List.filter_map, List.map_map]
    rfl

end Sys2Proof.Proofs
end

section
/-! The encoding of commands and requests in numbers, and what a command decodes to. -/

namespace Sys2Proof

theorem Op.ofField_eq_some_iff {b : BitVec 3} {op : Op} : Op.ofField b = some op ↔ b.toNat = op.number := by
  revert b
  cases op <;> decide

theorem Format.ofField_eq_some_iff {b : BitVec 3} {fmt : Format} :
    Format.ofField b = some fmt ↔ b.toNat = fmt.number := by
  revert b
  cases fmt <;> decide

theorem Op.exists_ofField_iff {b : BitVec 3} : (∃ op, Op.ofField b = some op) ↔ b.toNat < 5 := by
  rw [← Option.isSome_iff_exists]
  revert b
  decide

theorem Format.exists_ofField_iff {b : BitVec 3} : (∃ fmt, Format.ofField b = some fmt) ↔ b.toNat < 5 := by
  rw [← Option.isSome_iff_exists]
  revert b
  decide

theorem toNat_highBits (cmd : Command) : (highBits cmd).toNat = cmd.toNat / 64 := by
  have h := cmd.isLt
  simp only [highBits, BitVec.extractLsb'_toNat, Nat.shiftRight_eq_div_pow]
  omega

theorem toNat_opField (cmd : Command) : (opField cmd).toNat = cmd.toNat / 8 % 8 := by
  simp [opField, Nat.shiftRight_eq_div_pow]

theorem toNat_fmtField (cmd : Command) : (fmtField cmd).toNat = cmd.toNat % 8 := by
  simp [fmtField]

theorem Op.number_lt (op : Op) : op.number < 5 := by cases op <;> decide

theorem Format.number_lt (fmt : Format) : fmt.number < 5 := by cases fmt <;> decide

theorem decodeCommand_eq_ok_iff_fields {cmd : Command} {op : Op} {fmt : Format} :
    decodeCommand cmd = .ok (op, fmt) ↔
      highBits cmd = 0#2 ∧ Op.ofField (opField cmd) = some op ∧ Format.ofField (fmtField cmd) = some fmt := by
  unfold decodeCommand
  split
  case isTrue hhigh => split <;> simp_all
  case isFalse hhigh => simp [hhigh]

/-- A command decodes to an operation and a format exactly when it is the number R76 gives them. -/
theorem decodeCommand_eq_ok_iff {cmd : Command} {op : Op} {fmt : Format} :
    decodeCommand cmd = .ok (op, fmt) ↔ cmd.toNat = 8 * op.number + fmt.number := by
  have hop := op.number_lt
  have hfmt := fmt.number_lt
  rw [decodeCommand_eq_ok_iff_fields, Op.ofField_eq_some_iff, Format.ofField_eq_some_iff, ← BitVec.toNat_inj,
    toNat_highBits, toNat_opField, toNat_fmtField, BitVec.toNat_ofNat]
  omega

theorem toNat_encode_cmd (i : Instr) : (encode i).cmd.toNat = 8 * i.op.number + i.format.number := by
  cases i <;> rfl

theorem encode_data (i : Instr) : (encode i).data = i.data := by cases i <;> rfl

@[simp] theorem Instr.op_ofParts (op : Op) (fmt : Format) (data : Word) : (Instr.ofParts op fmt data).op = op := by
  cases op <;> cases fmt <;> rfl

@[simp] theorem Instr.format_ofParts (op : Op) (fmt : Format) (data : Word) :
    (Instr.ofParts op fmt data).format = fmt := by
  cases op <;> cases fmt <;> rfl

@[simp] theorem Instr.data_ofParts (op : Op) (fmt : Format) (data : Word) : (Instr.ofParts op fmt data).data = data := by
  cases op <;> cases fmt <;> rfl

theorem decode_eq_ok_iff_command {r : Request} {i : Instr} :
    decode r = .ok i ↔ decodeCommand r.cmd = .ok (i.op, i.format) ∧ r.data = i.data := by
  unfold decode
  split
  case h_1 op fmt hcmd =>
    rw [hcmd]
    constructor
    · rintro ⟨⟩
      simp
    · rintro ⟨⟨⟩, hdata⟩
      rw [hdata, Instr.ofParts_self]
  case h_2 e hcmd => simp [hcmd]

theorem eq_encode_iff {r : Request} {i : Instr} :
    r = encode i ↔ r.cmd.toNat = 8 * i.op.number + i.format.number ∧ r.data = i.data := by
  rw [← toNat_encode_cmd, ← encode_data, BitVec.toNat_inj]
  cases r
  cases encode i
  simp

/-- The encoder inverts the decoder: no bit of the command is free (R76), and none of the operand is dropped (log 22). -/
theorem decode_eq_ok_iff {r : Request} {i : Instr} : decode r = .ok i ↔ r = encode i := by
  rw [decode_eq_ok_iff_command, decodeCommand_eq_ok_iff, eq_encode_iff]

theorem Request.toNat_toBits (r : Request) : r.toBits.toNat = r.cmd.toNat * 2 ^ 64 + r.data.toNat := by
  rw [Request.toBits, BitVec.toNat_append, ← Nat.shiftLeft_add_eq_or_of_lt r.data.isLt, Nat.shiftLeft_eq]

@[simp] theorem Request.ofBits_toBits (r : Request) : Request.ofBits r.toBits = r := by
  rw [Request.ofBits, Request.toBits, BitVec.extractLsb'_append_eq_left, BitVec.extractLsb'_append_eq_right]

@[simp] theorem Request.toBits_ofBits (w : BitVec 72) : (Request.ofBits w).toBits = w := by
  apply BitVec.eq_of_toNat_eq
  have hw := w.isLt
  simp only [Request.toNat_toBits, Request.ofBits, BitVec.extractLsb'_toNat, Nat.shiftRight_eq_div_pow]
  omega

end Sys2Proof

namespace Sys2Proof.Machine

/-- R65's condition on the bits of a command is the decoder's. -/
theorem legalCommand_iff {cmd : Command} : LegalCommand cmd ↔ ∃ op fmt, decodeCommand cmd = .ok (op, fmt) := by
  simp only [decodeCommand_eq_ok_iff_fields, exists_and_left, exists_and_right, Op.exists_ofField_iff,
    Format.exists_ofField_iff]
  rfl

theorem legalCommand_iff_decode_ok {cmd : Command} (data : Word) :
    LegalCommand cmd ↔ ∃ i, decode ⟨cmd, data⟩ = .ok i := by
  rw [legalCommand_iff]
  constructor
  · rintro ⟨op, fmt, h⟩
    exact ⟨_, decode_of_command h data⟩
  · rintro ⟨i, h⟩
    exact ⟨_, _, (decode_eq_ok_iff_command.mp h).1⟩

theorem not_legalCommand_iff_decode_error {cmd : Command} (data : Word) :
    ¬ LegalCommand cmd ↔ ∃ e, decode ⟨cmd, data⟩ = .error e := by
  rw [legalCommand_iff_decode_ok data]
  rcases decode ⟨cmd, data⟩ with e | i <;> simp

/-- An instruction can fail with `OUT_OF_RANGE` only (R174). -/
theorem responseOf_ne_illegalRequest (i : Instr) : responseOf i ≠ .illegalRequest := by
  unfold responseOf
  split
  case h_1 => simp [descResponse]
  case h_2 => unfold widenResponse; split <;> simp
  case h_3 => unfold narrowResponse; split <;> simp
  case h_4 => unfold crackResponse; split <;> simp
  case h_5 => simp [epsResponse]

theorem ask_eq_illegalRequest_iff (cmd : Command) (data : Word) :
    ask ⟨cmd, data⟩ = .illegalRequest ↔ ¬ LegalCommand cmd := by
  rcases hd : decode ⟨cmd, data⟩ with e | i
  · simp [ask_of_decode_error hd, (not_legalCommand_iff_decode_error data).mpr ⟨e, hd⟩]
  · simp [ask_of_decode_ok hd, responseOf_ne_illegalRequest, (legalCommand_iff_decode_ok data).mpr ⟨i, hd⟩]

end Sys2Proof.Machine

namespace Sys2Proof.Proofs

open Sys2Proof.Machine

/-- Settles O3: the layout is read off the encoder; the two round trips are the decoder's characterisation, taken through
`ofBits` and `toBits`, which undo each other. -/
theorem encodingRoundTripsBothWays : Obligations.EncodingRoundTripsBothWays := by
  refine ⟨fun i => ?_, fun i => ?_, fun w i h => ?_⟩
  · rw [encodeBits, Request.toNat_toBits, toNat_encode_cmd, encode_data]
  · rw [decodeBits, encodeBits, Request.ofBits_toBits, decode_eq_ok_iff]
  · rw [encodeBits, ← decode_eq_ok_iff.mp h, Request.toBits_ofBits]

/-- Settles O1: each command byte stands in the encoder, whose inverse the decoder is. -/
theorem opcodeMapNamesTwentyFiveCommands : Obligations.OpcodeMapNamesTwentyFiveCommands := by
  intro d
  simp only [decode_eq_ok_iff, encode, and_self]

/-- Settles O2: the commands are counted one by one; that the decoder accepts exactly the legal ones, and `ask` refuses
exactly the others, holds for every operand, and a step answers as `ask` does (O7). -/
theorem illegalCommandsAreAnsweredIllegalRequest : Obligations.IllegalCommandsAreAnsweredIllegalRequest := by
  refine ⟨by decide, fun cmd data => ⟨(legalCommand_iff_decode_ok data).mp,
    (not_legalCommand_iff_decode_error data).mp, fun s rest hs => ⟨ask ⟨cmd, data⟩, ?_, ?_, ?_⟩⟩⟩
  · exact responseDependsOnRequestAlone s _ rest hs
  · exact ask_eq_illegalRequest_iff cmd data
  · intro hr
    rw [hr]
    exact ⟨rfl, rfl⟩

/-- Settles O24: `ask` gives DESC and EPS the response of the format alone. -/
theorem constantOperationsIgnoreData : Obligations.ConstantOperationsIgnoreData := by
  intro f d d'
  rw [ask_desc, ask_desc, ask_eps, ask_eps]
  exact ⟨rfl, rfl, rfl, rfl⟩

end Sys2Proof.Proofs
end

section
/-! The host's sequences by whether their operand fits, and the lines of the pseudo-instructions. -/

namespace Sys2Proof.Machine

/-- What DECODE yields for the pattern `p` in the word `d` that carries it (R150). -/
def decodedOf (f : Format) (d : Word) : Decoded :=
  let p := d.setWidth f.totalBits
  ⟨d, (widen f p).setWidth 64, signField f p, (exponentField f p).setWidth 11, (fractionField f p).setWidth 52⟩

theorem decodeSequence_of_lt {f : Format} {data : Word} (h : data.toNat < 2 ^ f.totalBits) :
    decodeSequence f data = .ok (decodedOf f data) := by
  simp [decodeSequence, ask_widen, ask_crack, widenResponse_of_lt h, crackResponse_of_lt h, decodedOf]

theorem decodeSequence_of_le {f : Format} {data : Word} (h : 2 ^ f.totalBits ≤ data.toNat) :
    decodeSequence f data = .error .outOfRange := by
  simp [decodeSequence, ask_widen, widenResponse_of_le h]

theorem decodeSequence_eq_ok_iff {f : Format} {data : Word} {d : Decoded} :
    decodeSequence f data = .ok d ↔ data.toNat < 2 ^ f.totalBits ∧ d = decodedOf f data := by
  rcases Nat.lt_or_ge data.toNat (2 ^ f.totalBits) with h | h
  · simp [decodeSequence_of_lt h, h, eq_comm]
  · simp [decodeSequence_of_le h, h]

theorem decodeSequence_eq_error_iff {f : Format} {data : Word} :
    decodeSequence f data = .error .outOfRange ↔ 2 ^ f.totalBits ≤ data.toNat := by
  rcases Nat.lt_or_ge data.toNat (2 ^ f.totalBits) with h | h
  · simp [decodeSequence_of_lt h, h]
  · simp [decodeSequence_of_le h, h]

/-- The pattern that NARROW gives for the operand `data` (R100), in the word that carries it. -/
def narrowedWord (f : Format) (data : Word) : Word := (narrow f (data.setWidth f.carrierBits)).setWidth 64

theorem narrowedWord_lt (f : Format) (data : Word) : (narrowedWord f data).toNat < 2 ^ f.totalBits := by
  rw [narrowedWord, BitVec.toNat_setWidth_of_le f.totalBits_le]
  exact (narrow f _).isLt

theorem encodeSequence_of_lt {f : Format} {data : Word} (h : data.toNat < 2 ^ f.carrierBits) :
    encodeSequence f data = .ok (decodedOf f (narrowedWord f data)) := by
  simp only [encodeSequence, ask_narrow, narrowResponse_of_lt h]
  exact decodeSequence_of_lt (narrowedWord_lt f data)

theorem encodeSequence_of_le {f : Format} {data : Word} (h : 2 ^ f.carrierBits ≤ data.toNat) :
    encodeSequence f data = .error .outOfRange := by
  simp [encodeSequence, ask_narrow, narrowResponse_of_le h]

theorem encodeSequence_eq_ok_iff {f : Format} {data : Word} {d : Decoded} :
    encodeSequence f data = .ok d ↔ data.toNat < 2 ^ f.carrierBits ∧ d = decodedOf f (narrowedWord f data) := by
  rcases Nat.lt_or_ge data.toNat (2 ^ f.carrierBits) with h | h
  · simp [encodeSequence_of_lt h, h, eq_comm]
  · simp [encodeSequence_of_le h, h]

theorem encodeSequence_eq_error_iff {f : Format} {data : Word} :
    encodeSequence f data = .error .outOfRange ↔ 2 ^ f.carrierBits ≤ data.toNat := by
  rcases Nat.lt_or_ge data.toNat (2 ^ f.carrierBits) with h | h
  · simp [encodeSequence_of_lt h, h]
  · simp [encodeSequence_of_le h, h]

theorem epsilon_lt (f : Format) : f.epsilon.toNat < 2 ^ f.totalBits := by cases f <;> decide

theorem epsilonSequence_eq (f : Format) : epsilonSequence f = .ok (decodedOf f f.epsilon) := by
  simp only [epsilonSequence, ask_eps, epsResponse]
  exact decodeSequence_of_lt (epsilon_lt f)

/-- A line with a set source binds its variables and the rest runs, or the run stops there (R74, R176). -/
theorem runLines_cons_of_response {dst : List Nat} {op : Op} {f : Format} {src : Source} {vars : Vars} {data : Word}
    {response : Response} (rest : List Line) (hsrc : src.value vars = .ok data)
    (hresponse : ask (requestOf op f data) = response) :
    runLines (⟨dst, op, f, some src⟩ :: rest) vars =
      if response.status = 0 then runLines rest (dst.zip response.results ++ vars)
      else .failed vars ⟨dst, op, f, some src⟩ data response := by
  simp [runLines, hsrc, hresponse]

theorem runLines_cons_of_unset {dst : List Nat} {op : Op} {f : Format} {src : Source} {vars : Vars} {n : Nat}
    (rest : List Line) (hsrc : src.value vars = .error n) :
    runLines (⟨dst, op, f, some src⟩ :: rest) vars = .unset vars n := by
  simp [runLines, hsrc]

theorem lookup_cons_eq_ite (n k : Nat) (w : Word) (vars : Vars) :
    List.lookup n ((k, w) :: vars) = if n = k then some w else vars.lookup n := by
  by_cases h : n = k
  · simp [h]
  · simp [h, List.lookup_cons, beq_eq_false_iff_ne.mpr h]

theorem Source.value_var_cons_self (n : Nat) (w : Word) (vars : Vars) :
    Source.value ((n, w) :: vars) (.var n) = .ok w :=
  Source.value_var_of_lookup List.lookup_cons_self

theorem Source.value_cons_of_ne {src : Source} {n : Nat} (h : src ≠ .var n) (w : Word) (vars : Vars) :
    src.value ((n, w) :: vars) = src.value vars := by
  cases src with
  | literal data => rfl
  | var k =>
    have hk : k ≠ n := fun hk => h (hk ▸ rfl)
    simp [Source.value, lookup_cons_eq_ite, hk]

/-! DECODE's two lines -/

/-- The first line of DECODE, on a pattern that fits. -/
theorem runLines_widen_of_lt {f : Format} {src : Source} {vars : Vars} {data : Word} (v : Nat) (rest : List Line)
    (hsrc : src.value vars = .ok data) (h : data.toNat < 2 ^ f.totalBits) :
    runLines (⟨[v], .widen, f, some src⟩ :: rest) vars = runLines rest ((v, (decodedOf f data).value) :: vars) :=
  (runLines_cons_of_response rest hsrc ((ask_widen f data).trans (widenResponse_of_lt h))).trans (if_pos rfl)

theorem runLines_decodeLines_of_le {f : Format} {src : Source} {vars : Vars} {data : Word} (v s e m : Nat)
    (hsrc : src.value vars = .ok data) (h : 2 ^ f.totalBits ≤ data.toNat) :
    runLines (decodeLines f src v s e m) vars = .failed vars ⟨[v], .widen, f, some src⟩ data .outOfRange :=
  (runLines_cons_of_response _ hsrc ((ask_widen f data).trans (widenResponse_of_le h))).trans (if_neg (by decide))

/-- The bindings that the two lines of DECODE leave in front of the variables. -/
def decodeBindings (d : Decoded) (v s e m : Nat) : Vars :=
  [(s, d.sign.setWidth 64), (e, d.exponent.setWidth 64), (m, d.fraction.setWidth 64), (v, d.value)]

/-- The value and the three fields, in the order of DECODE's destinations. -/
def decodedWords (d : Decoded) : List Word :=
  [d.value, d.sign.setWidth 64, d.exponent.setWidth 64, d.fraction.setWidth 64]

theorem runLines_decodeLines_of_lt {f : Format} {src : Source} {vars : Vars} {data : Word} {v : Nat} (s e m : Nat)
    (hsrc : src.value vars = .ok data) (h : data.toNat < 2 ^ f.totalBits) (hne : src ≠ .var v) :
    runLines (decodeLines f src v s e m) vars = .finished (decodeBindings (decodedOf f data) v s e m ++ vars) := by
  rw [decodeLines, runLines_widen_of_lt v _ hsrc h]
  have hsrc' := (Source.value_cons_of_ne hne (decodedOf f data).value vars).trans hsrc
  exact (runLines_cons_of_response [] hsrc' ((ask_crack f data).trans (crackResponse_of_lt h))).trans (if_pos rfl)

/-- A DECODE whose source is the variable that its first line writes cracks the widened value. -/
theorem runLines_decodeLines_var_self {f : Format} {vars : Vars} {data : Word} {v : Nat} (s e m : Nat)
    (hsrc : Source.value vars (.var v) = .ok data) (h : data.toNat < 2 ^ f.totalBits) :
    runLines (decodeLines f (.var v) v s e m) vars =
      let response := ask (requestOf .crack f (decodedOf f data).value)
      let vars' : Vars := (v, (decodedOf f data).value) :: vars
      if response.status = 0 then .finished ([s, e, m].zip response.results ++ vars')
      else .failed vars' ⟨[s, e, m], .crack, f, some (.var v)⟩ (decodedOf f data).value response := by
  rw [decodeLines, runLines_widen_of_lt v _ hsrc h]
  exact runLines_cons_of_response [] (Source.value_var_cons_self ..) rfl

theorem lookup_decodeBindings {v s e m : Nat} (h : [v, s, e, m].Nodup) (d : Decoded) (vars : Vars) :
    [v, s, e, m].map (fun n => (decodeBindings d v s e m ++ vars).lookup n) = (decodedWords d).map some := by
  obtain ⟨⟨hvs, hve, hvm⟩, ⟨hse, hsm⟩, hem⟩ : (v ≠ s ∧ v ≠ e ∧ v ≠ m) ∧ (s ≠ e ∧ s ≠ m) ∧ e ≠ m := by simpa using h
  simp [decodeBindings, decodedWords, lookup_cons_eq_ite, hvs, hve, hvm, hse.symm, hsm.symm, hem.symm]

theorem lookup_decodeBindings_of_notMem {n v s e m : Nat} (h : n ∉ [v, s, e, m]) (d : Decoded) (vars : Vars) :
    (decodeBindings d v s e m ++ vars).lookup n = vars.lookup n := by
  obtain ⟨hv, hs, he, hm⟩ : n ≠ v ∧ n ≠ s ∧ n ≠ e ∧ n ≠ m := by simpa using h
  simp [decodeBindings, lookup_cons_eq_ite, hv, hs, he, hm]

/-! ENCODE and EPSILON: a line that sets the pattern, then DECODE's lines -/

/-- DECODE's lines, run on a variable `p` that the line before has set to a pattern, end with all five results. -/
theorem runLines_decodeLines_of_pattern {p v s e m : Nat} (hdistinct : [p, v, s, e, m].Nodup) {f : Format} {data : Word}
    (h : data.toNat < 2 ^ f.totalBits) (vars : Vars) :
    ∃ out, runLines (decodeLines f (.var p) v s e m) ((p, data) :: vars) = .finished out ∧
      [p, v, s, e, m].map (fun n => out.lookup n) =
        some (decodedOf f data).pattern :: (decodedWords (decodedOf f data)).map some := by
  obtain ⟨hp, hrest⟩ := List.nodup_cons.mp hdistinct
  have hne : Source.var p ≠ .var v := fun heq => hp (by simp [Source.var.inj heq])
  refine ⟨_, runLines_decodeLines_of_lt s e m (Source.value_var_cons_self p data vars) h hne, ?_⟩
  rw [List.map_cons, lookup_decodeBindings hrest, lookup_decodeBindings_of_notMem hp, List.lookup_cons_self]
  rfl

theorem runLines_encodeLines_of_lt {f : Format} {src : Source} {vars : Vars} {data : Word} (p v s e m : Nat)
    (hsrc : src.value vars = .ok data) (h : data.toNat < 2 ^ f.carrierBits) :
    runLines (encodeLines f src p v s e m) vars =
      runLines (decodeLines f (.var p) v s e m) ((p, narrowedWord f data) :: vars) :=
  (runLines_cons_of_response _ hsrc ((ask_narrow f data).trans (narrowResponse_of_lt h))).trans (if_pos rfl)

theorem runLines_encodeLines_of_le {f : Format} {src : Source} {vars : Vars} {data : Word} (p v s e m : Nat)
    (hsrc : src.value vars = .ok data) (h : 2 ^ f.carrierBits ≤ data.toNat) :
    runLines (encodeLines f src p v s e m) vars = .failed vars ⟨[p], .narrow, f, some src⟩ data .outOfRange :=
  (runLines_cons_of_response _ hsrc ((ask_narrow f data).trans (narrowResponse_of_le h))).trans (if_neg (by decide))

theorem runLines_epsilonLines (f : Format) (p v s e m : Nat) (vars : Vars) :
    runLines (epsilonLines f p v s e m) vars =
      runLines (decodeLines f (.var p) v s e m) ((p, f.epsilon) :: vars) := by
  have hstatus : (ask (requestOf .eps f 0)).status = 0 := by rw [ask_eps]; rfl
  rw [epsilonLines, runLines_cons_of_ok _ (Line.operand_none ..) hstatus, ask_eps]
  rfl

end Sys2Proof.Machine

namespace Sys2Proof.Proofs

open Sys2Proof.Machine

/-- Settles O46: each sequence succeeds or fails with the range check of its operand, and so does the first line; after it, the
lines that follow bind what the sequence yields. -/
theorem pseudoInstructionsRunTheirSequences : Obligations.PseudoInstructionsRunTheirSequences := by
  intro f src vars p v s e m hdistinct
  refine ⟨fun x hsrc => ⟨fun d hd hne => ?decode, fun d hd hself => ?decodeSelf, fun d hd => ?encode,
    fun hfail => ?decodeFails, fun hfail => ?encodeFails⟩,
    fun n hunset => ⟨runLines_cons_of_unset _ hunset, runLines_cons_of_unset _ hunset⟩, ?epsilon⟩
  case decode =>
    obtain ⟨hfits, rfl⟩ := decodeSequence_eq_ok_iff.mp hd
    have hdst : [v, s, e, m].Nodup := hdistinct.of_cons
    exact ⟨_, runLines_decodeLines_of_lt s e m hsrc hfits hne, lookup_decodeBindings hdst _ vars⟩
  case decodeSelf =>
    obtain ⟨hfits, rfl⟩ := decodeSequence_eq_ok_iff.mp hd
    obtain rfl := hself
    exact runLines_decodeLines_var_self s e m hsrc hfits
  case encode =>
    obtain ⟨hfits, rfl⟩ := encodeSequence_eq_ok_iff.mp hd
    rw [runLines_encodeLines_of_lt p v s e m hsrc hfits]
    exact runLines_decodeLines_of_pattern hdistinct (narrowedWord_lt f x) vars
  case decodeFails => exact runLines_decodeLines_of_le v s e m hsrc (decodeSequence_eq_error_iff.mp hfail)
  case encodeFails => exact runLines_encodeLines_of_le p v s e m hsrc (encodeSequence_eq_error_iff.mp hfail)
  case epsilon =>
    obtain ⟨out, hrun, hout⟩ := runLines_decodeLines_of_pattern hdistinct (epsilon_lt f) vars
    exact ⟨_, out, epsilonSequence_eq f, (runLines_epsilonLines ..).trans hrun, hout⟩

end Sys2Proof.Proofs
end

section
/-! What an instruction answers, from its encoding and its response; the rows of DESC. -/

namespace Sys2Proof.Machine

/-- The decoder's half of `Answers` is the encoder's word; the half about every state is the instruction's response, which takes
nothing from the state. -/
theorem answers_of_encode {cmd : Command} {mk : Word → Instr} {data : Word} {r : Response}
    (hcode : ⟨cmd, data⟩ = encode (mk data)) (hresponse : responseOf (mk data) = r) : Answers cmd mk data r := by
  refine ⟨decode_eq_ok_iff.mpr hcode, fun s => ?_⟩
  rw [exec_eq_answer, hresponse]
  rfl

end Sys2Proof.Machine

namespace Sys2Proof.Proofs

open Sys2Proof.Machine

/-- Settles O16: of each DESC instruction the command byte stands in the encoder, and the response is the row that
`descResponse` reads off the format table, the operand aside. -/
theorem descAnswersFormatRow : Obligations.DescAnswersFormatRow := by
  intro d
  refine ⟨?bf8, ?bf16, ?fp16, ?fp32, ?fp64⟩ <;> exact answers_of_encode rfl rfl

end Sys2Proof.Proofs
end

section
/-! WIDEN: its answer by the operand's high bits, and its image and inverse. -/

namespace Sys2Proof.Machine

/-- The bits from `n` on are zero exactly where the word is a number below `2^n` (R67). -/
theorem extractLsb'_eq_zero_iff_lt {n k : Nat} (hwidth : n + k = 64) (data : Word) :
    data.extractLsb' n k = 0#k ↔ data.toNat < 2 ^ n := by
  have hhigh : data.toNat / 2 ^ n < 2 ^ k :=
    Nat.div_lt_of_lt_mul (by rw [← Nat.pow_add, hwidth]; exact data.isLt)
  rw [← BitVec.toNat_inj, BitVec.extractLsb'_toNat, BitVec.toNat_ofNat, Nat.zero_mod, Nat.shiftRight_eq_div_pow,
    Nat.mod_eq_of_lt hhigh, Nat.div_eq_zero_iff_lt (by positivity)]

/-- The word that WIDEN answers, as a number (R90). -/
theorem toNat_widen_setWidth {f : Format} {data : Word} (h : data.toNat < 2 ^ f.totalBits) :
    ((widen f (data.setWidth f.totalBits)).setWidth 64).toNat = data.toNat * 2 ^ f.discardedBits := by
  rw [BitVec.toNat_setWidth_of_le f.carrierBits_le, toNat_widen, BitVec.toNat_setWidth, Nat.mod_eq_of_lt h]

theorem widenResponse_of_highBits_ne_zero {f : Format} {data : Word} {k : Nat} (hwidth : f.totalBits + k = 64)
    (h : data.extractLsb' f.totalBits k ≠ 0#k) : widenResponse f data = .outOfRange := by
  rw [ne_eq, extractLsb'_eq_zero_iff_lt hwidth, Nat.not_lt] at h
  exact widenResponse_of_le h

/-- A pattern that fits is answered with `d` zero bits below it (R91, R92). -/
theorem widenResponse_eq_append_zeros {f : Format} {data : Word} {k : Nat} (hwidth : f.totalBits + k = 64)
    (h : data.extractLsb' f.totalBits k = 0#k) :
    widenResponse f data = .widen ((data.extractLsb' 0 f.totalBits ++ 0#f.discardedBits).setWidth 64) := by
  rw [extractLsb'_eq_zero_iff_lt hwidth] at h
  have hle : f.totalBits + f.discardedBits ≤ 64 := f.carrierBits_eq ▸ f.carrierBits_le
  rw [widenResponse_of_lt h]
  congr 1
  apply BitVec.eq_of_toNat_eq
  rw [toNat_widen_setWidth h, BitVec.toNat_setWidth_of_le hle, BitVec.toNat_append]
  simp [Nat.mod_eq_of_lt h, Nat.shiftLeft_eq]

/-- A native format discards no bit, so a pattern that fits is answered as it is (R93 to R95). -/
theorem widenResponse_of_native {f : Format} (hnative : f.isNarrow = false) {data : Word}
    (h : data.toNat < 2 ^ f.totalBits) : widenResponse f data = .widen data := by
  rw [widenResponse_of_lt h]
  congr 1
  apply BitVec.eq_of_toNat_eq
  rw [toNat_widen_setWidth h, Format.discardedBits_native hnative, Nat.pow_zero, Nat.mul_one]

theorem topBits_eq_ushiftRight (f : Format) (v : BitVec f.carrierBits) :
    topBits f v = (v >>> f.discardedBits).setWidth f.totalBits := by
  apply BitVec.eq_of_toNat_eq
  simp [topBits]

@[simp] theorem topBits_widen (f : Format) (p : BitVec f.totalBits) : topBits f (widen f p) = p := by
  apply BitVec.eq_of_toNat_eq
  rw [toNat_topBits, toNat_widen, Nat.mul_div_cancel _ (by positivity)]

theorem widen_injective (f : Format) : Function.Injective (widen f) :=
  Function.LeftInverse.injective (topBits_widen f)

theorem setWidth_discardedBits_eq_zero_iff {f : Format} {v : BitVec f.carrierBits} :
    v.setWidth f.discardedBits = 0#f.discardedBits ↔ 2 ^ f.discardedBits ∣ v.toNat := by
  rw [← BitVec.toNat_inj, BitVec.toNat_setWidth, BitVec.toNat_ofNat, Nat.zero_mod, Nat.dvd_iff_mod_eq_zero]

theorem widen_topBits {f : Format} {v : BitVec f.carrierBits} (h : 2 ^ f.discardedBits ∣ v.toNat) :
    widen f (topBits f v) = v := by
  apply BitVec.eq_of_toNat_eq
  rw [toNat_widen, toNat_topBits, Nat.div_mul_cancel h]

theorem exists_widen_eq_iff {f : Format} {v : BitVec f.carrierBits} :
    (∃ p, widen f p = v) ↔ 2 ^ f.discardedBits ∣ v.toNat := by
  constructor
  · rintro ⟨p, rfl⟩
    exact toNat_widen f p ▸ Nat.dvd_mul_left ..
  · exact fun h => ⟨topBits f v, widen_topBits h⟩

end Sys2Proof.Machine

namespace Sys2Proof.Proofs

open Sys2Proof.Machine

/-- Settles O17: the range check of each format, read off the operand's high bits, decides between `OUT_OF_RANGE` and the
pattern with zeros appended. -/
theorem widenNarrowFormatsAppendsZeros : Obligations.WidenNarrowFormatsAppendsZeros := by
  intro d
  refine ⟨fun h => ?bf8Fails, fun h => ?bf8Fits, fun h => ?bf16Fails, fun h => ?bf16Fits⟩
  case bf8Fails => exact answers_of_encode rfl (widenResponse_of_highBits_ne_zero (f := .bf8) rfl h)
  case bf8Fits => exact answers_of_encode rfl (widenResponse_eq_append_zeros (f := .bf8) rfl h)
  case bf16Fails => exact answers_of_encode rfl (widenResponse_of_highBits_ne_zero (f := .bf16) rfl h)
  case bf16Fits => exact answers_of_encode rfl (widenResponse_eq_append_zeros (f := .bf16) rfl h)

/-- Settles O18: the range check as for the narrow formats, with the same bits where the operand fits; every word fits fp64. -/
theorem widenNativeFormatsKeepsBits : Obligations.WidenNativeFormatsKeepsBits := by
  intro d
  refine ⟨fun h => ?fp16Fails, fun h => ?fp16Fits, fun h => ?fp32Fails, fun h => ?fp32Fits, ?fp64⟩
  case fp16Fails => exact answers_of_encode rfl (widenResponse_of_highBits_ne_zero (f := .fp16) rfl h)
  case fp16Fits =>
    have hfits := (extractLsb'_eq_zero_iff_lt rfl d).mp h
    exact answers_of_encode rfl (widenResponse_of_native (f := .fp16) rfl hfits)
  case fp32Fails => exact answers_of_encode rfl (widenResponse_of_highBits_ne_zero (f := .fp32) rfl h)
  case fp32Fits =>
    have hfits := (extractLsb'_eq_zero_iff_lt rfl d).mp h
    exact answers_of_encode rfl (widenResponse_of_native (f := .fp32) rfl hfits)
  case fp64 => exact answers_of_encode rfl (widenResponse_of_native (f := .fp64) rfl d.isLt)

/-- Settles O28: the top bits, which are the right shift by `d`, undo widening, and widening undoes them where the low `d` bits
are zero. -/
theorem widenInjectiveOntoZeroTailed : Obligations.WidenInjectiveOntoZeroTailed := by
  refine fun f => ⟨fun p q h => widen_injective f h, fun w => ?image, fun p => ?inverse⟩
  case image => rw [exists_widen_eq_iff, setWidth_discardedBits_eq_zero_iff]
  case inverse => rw [← topBits_eq_ushiftRight, topBits_widen]

end Sys2Proof.Proofs
end

section
/-! NARROW: the fields that truncation keeps, the NaN branch, the rounding branch, and the answer by the operand's high bits. -/

namespace Sys2Proof

theorem Format.discardedBits_pos {f : Format} (h : f.isNarrow = true) : 0 < f.discardedBits := by
  revert h
  cases f <;> decide

end Sys2Proof

namespace Sys2Proof.Machine

/-! The fields of the truncated carrier pattern: `d` bits of the fraction are lost, sign and exponent stay (R101). -/

theorem signField_topBits (f : Format) (v : BitVec f.carrierBits) :
    signField f (topBits f v) = signField f.carrier v := by
  apply BitVec.eq_of_toNat_eq
  rw [toNat_signField, toNat_signField, toNat_topBits, Nat.div_div_eq_div_mul, ← Nat.pow_add, f.carrier_exponentBits,
    f.carrier_fractionBits]
  congr 3
  omega

theorem toNat_exponentField_topBits (f : Format) (v : BitVec f.carrierBits) :
    (exponentField f (topBits f v)).toNat = (exponentField f.carrier v).toNat := by
  rw [toNat_exponentField, toNat_exponentField, toNat_topBits, Nat.div_div_eq_div_mul, ← Nat.pow_add,
    f.carrier_exponentBits, f.carrier_fractionBits, Nat.add_comm]

theorem toNat_fractionField_topBits (f : Format) (v : BitVec f.carrierBits) :
    (fractionField f (topBits f v)).toNat = (fractionField f.carrier v).toNat / 2 ^ f.discardedBits := by
  rw [toNat_fractionField, toNat_fractionField, toNat_topBits, f.carrier_fractionBits, Nat.pow_add,
    Nat.mod_mul_left_div_self]

theorem isNaN_iff_fields (f : Format) (p : BitVec f.totalBits) :
    isNaN f p = true ↔ exponentField f p = BitVec.allOnes _ ∧ fractionField f p ≠ 0#_ := by
  simp [isNaN]

/-- Truncation keeps the exponent of a NaN, so that only the fraction can turn it into an infinity (R103). -/
theorem exponentField_topBits_of_isNaN {f : Format} {v : BitVec f.carrierBits} (hnan : isNaN f.carrier v = true) :
    exponentField f (topBits f v) = BitVec.allOnes _ := by
  obtain ⟨hexponent, -⟩ := (isNaN_iff_fields f.carrier v).mp hnan
  apply BitVec.eq_of_toNat_eq
  rw [toNat_exponentField_topBits, hexponent, BitVec.toNat_allOnes, BitVec.toNat_allOnes, f.carrier_exponentBits]

/-! The NaN branch -/

theorem narrowNaN_of_fraction_ne_zero {f : Format} {v : BitVec f.carrierBits}
    (h : fractionField f (topBits f v) ≠ 0#_) : narrowNaN f v = topBits f v := if_neg h

theorem narrowNaN_of_fraction_eq_zero {f : Format} {v : BitVec f.carrierBits}
    (h : fractionField f (topBits f v) = 0#_) :
    narrowNaN f v = topBits f v ||| BitVec.twoPow f.totalBits f.nanForceBit := by
  have hbit : ((1 <<< f.nanForceBit : Nat) : BitVec f.totalBits) = BitVec.twoPow f.totalBits f.nanForceBit := by
    cases f <;> rfl
  rw [← hbit]
  exact if_pos h

theorem signField_or (f : Format) (p q : BitVec f.totalBits) :
    signField f (p ||| q) = signField f p ||| signField f q := BitVec.extractLsb'_or

theorem exponentField_or (f : Format) (p q : BitVec f.totalBits) :
    exponentField f (p ||| q) = exponentField f p ||| exponentField f q := BitVec.extractLsb'_or

theorem fractionField_or (f : Format) (p q : BitVec f.totalBits) :
    fractionField f (p ||| q) = fractionField f p ||| fractionField f q := BitVec.extractLsb'_or

/-- The forced bit lies in the fraction (R103, C1). -/
theorem fields_nanForceBit (f : Format) :
    signField f (BitVec.twoPow _ f.nanForceBit) = 0#_ ∧ exponentField f (BitVec.twoPow _ f.nanForceBit) = 0#_ ∧
      (fractionField f (BitVec.twoPow _ f.nanForceBit)).toNat = 2 ^ (f.fractionBits - 2) := by
  cases f <;> decide

theorem signField_narrowNaN (f : Format) (v : BitVec f.carrierBits) :
    signField f (narrowNaN f v) = signField f.carrier v := by
  obtain ⟨hsign, -, -⟩ := fields_nanForceBit f
  by_cases h : fractionField f (topBits f v) = 0#_
  · rw [narrowNaN_of_fraction_eq_zero h, signField_or, hsign, BitVec.or_zero, signField_topBits]
  · rw [narrowNaN_of_fraction_ne_zero h, signField_topBits]

theorem exponentField_narrowNaN (f : Format) (v : BitVec f.carrierBits) :
    exponentField f (narrowNaN f v) = exponentField f (topBits f v) := by
  obtain ⟨-, hexponent, -⟩ := fields_nanForceBit f
  by_cases h : fractionField f (topBits f v) = 0#_
  · rw [narrowNaN_of_fraction_eq_zero h, exponentField_or, hexponent, BitVec.or_zero]
  · rw [narrowNaN_of_fraction_ne_zero h]

theorem toNat_fractionField_narrowNaN (f : Format) (v : BitVec f.carrierBits) :
    (fractionField f (narrowNaN f v)).toNat =
      if (fractionField f (topBits f v)).toNat = 0 then 2 ^ (f.fractionBits - 2)
      else (fractionField f (topBits f v)).toNat := by
  obtain ⟨-, -, hfraction⟩ := fields_nanForceBit f
  by_cases h : fractionField f (topBits f v) = 0#_
  · rw [narrowNaN_of_fraction_eq_zero h, fractionField_or, h, BitVec.zero_or, hfraction]
    simp
  · rw [narrowNaN_of_fraction_ne_zero h, if_neg (by simpa [← BitVec.toNat_inj] using h)]

theorem isNaN_narrowNaN {f : Format} {v : BitVec f.carrierBits} (hnan : isNaN f.carrier v = true) :
    isNaN f (narrowNaN f v) = true := by
  refine (isNaN_iff_fields f _).mpr ⟨?exponent, ?fraction⟩
  case exponent => rw [exponentField_narrowNaN, exponentField_topBits_of_isNaN hnan]
  case fraction =>
    rw [ne_eq, ← BitVec.toNat_inj, toNat_fractionField_narrowNaN]
    split
    · simp
    · assumption

/-! The branches of `narrow`, chosen by the carrier's fields (R102) -/

section
variable {f : Format} {v : BitVec f.carrierBits} (hnarrow : f.isNarrow = true)
include hnarrow

theorem narrow_eq_topBits (hexponent : exponentField f.carrier v = BitVec.allOnes _)
    (hfraction : fractionField f.carrier v ≠ 0#_) (hkept : fractionField f (topBits f v) ≠ 0#_) :
    narrow f v = topBits f v := by
  rw [narrow_of_nan hnarrow ((isNaN_iff_fields _ _).mpr ⟨hexponent, hfraction⟩), narrowNaN_of_fraction_ne_zero hkept]

theorem narrow_eq_topBits_or (hexponent : exponentField f.carrier v = BitVec.allOnes _)
    (hfraction : fractionField f.carrier v ≠ 0#_) (hlost : fractionField f (topBits f v) = 0#_) :
    narrow f v = topBits f v ||| BitVec.twoPow f.totalBits f.nanForceBit := by
  rw [narrow_of_nan hnarrow ((isNaN_iff_fields _ _).mpr ⟨hexponent, hfraction⟩), narrowNaN_of_fraction_eq_zero hlost]

theorem narrow_eq_narrowRound
    (hfields : ¬ (exponentField f.carrier v = BitVec.allOnes _ ∧ fractionField f.carrier v ≠ 0#_)) :
    narrow f v = narrowRound f v :=
  narrow_of_not_nan hnarrow (Bool.eq_false_iff.mpr (mt (isNaN_iff_fields _ _).mp hfields))

end

/-! The rounding branch -/

/-- The bias is just below half of the last bit kept, or that half itself where the truncated pattern is odd (R104). -/
theorem toNat_roundingBias (f : Format) (v : BitVec f.carrierBits) :
    (roundingBias f v).toNat = 2 ^ (f.discardedBits - 1) - 1 + v.toNat / 2 ^ f.discardedBits % 2 := by
  have hwidth : 2 ^ (f.discardedBits - 1) - 1 + 2 ≤ 2 ^ f.carrierBits := by cases f <;> decide
  have hparity : v.toNat / 2 ^ f.discardedBits % 2 < 2 := Nat.mod_lt _ (by decide)
  rw [roundingBias, BitVec.toNat_add, BitVec.toNat_ofNat, BitVec.toNat_setWidth, BitVec.extractLsb'_toNat,
    Nat.shiftRight_eq_div_pow, Nat.pow_one, Nat.add_mod_mod, Nat.mod_add_mod, Nat.mod_eq_of_lt (by omega)]

theorem roundingBias_lt {f : Format} (hnarrow : f.isNarrow = true) (v : BitVec f.carrierBits) :
    (roundingBias f v).toNat < 2 ^ f.discardedBits := by
  have hhalf : 2 ^ f.discardedBits = 2 * 2 ^ (f.discardedBits - 1) := by
    rw [← Nat.pow_add_one', Nat.sub_add_cancel (Format.discardedBits_pos hnarrow)]
  have hpos : 0 < 2 ^ (f.discardedBits - 1) := by positivity
  rw [toNat_roundingBias]
  omega

/-- Rounding is a quotient by `2^d` as long as no carry leaves the carrier's width (R104, R105). -/
theorem toNat_narrowRound_of_lt {f : Format} {v : BitVec f.carrierBits}
    (h : v.toNat + (roundingBias f v).toNat < 2 ^ f.carrierBits) :
    (narrowRound f v).toNat = (v.toNat + (roundingBias f v).toNat) / 2 ^ f.discardedBits := by
  rw [narrowRound, toNat_topBits, BitVec.toNat_add_of_lt h]

/-! NARROW of what WIDEN gives (R111) -/

/-- The low `d` bits of a widened pattern are zero, and the bias alone does not carry out of them. -/
theorem narrowRound_widen {f : Format} (hnarrow : f.isNarrow = true) (p : BitVec f.totalBits) :
    narrowRound f (widen f p) = p := by
  have hbias := roundingBias_lt hnarrow (widen f p)
  have hcarry : (widen f p).toNat + (roundingBias f (widen f p)).toNat < 2 ^ f.carrierBits :=
    calc (widen f p).toNat + (roundingBias f (widen f p)).toNat
        < (p.toNat + 1) * 2 ^ f.discardedBits := by rw [toNat_widen, Nat.add_one_mul]; omega
      _ ≤ 2 ^ f.totalBits * 2 ^ f.discardedBits := Nat.mul_le_mul_right _ p.isLt
      _ = 2 ^ f.carrierBits := by rw [f.carrierBits_eq, Nat.pow_add]
  apply BitVec.eq_of_toNat_eq
  rw [toNat_narrowRound_of_lt hcarry, toNat_widen, Nat.mul_comm, Nat.mul_add_div (by positivity),
    Nat.div_eq_of_lt hbias, Nat.add_zero]

theorem isNaN_widen (f : Format) (p : BitVec f.totalBits) : isNaN f.carrier (widen f p) = isNaN f p := by
  rw [Bool.eq_iff_iff, isNaN_iff, isNaN_iff, toNat_widen, f.carrier_exponentBits, f.carrier_fractionBits, Nat.pow_add,
    Nat.mul_div_mul_right _ _ (by positivity), Nat.mul_mod_mul_right]
  simp

theorem topBits_of_native {f : Format} (hnative : f.isNarrow = false) (v : BitVec f.carrierBits) :
    topBits f v = v.setWidth f.totalBits := by
  rw [topBits_eq_ushiftRight, Format.discardedBits_native hnative, BitVec.ushiftRight_zero]

/-- Each of the three ways to narrow gives a widened pattern back: keeping the bits, truncating a NaN whose fraction is not
zero, and rounding. -/
@[simp] theorem narrow_widen (f : Format) (p : BitVec f.totalBits) : narrow f (widen f p) = p := by
  cases hnarrow : f.isNarrow with
  | false => rw [narrow_of_native hnarrow, ← topBits_of_native hnarrow, topBits_widen]
  | true =>
    cases hnan : isNaN f.carrier (widen f p) with
    | false => rw [narrow_of_not_nan hnarrow hnan, narrowRound_widen hnarrow]
    | true =>
      obtain ⟨-, hfraction⟩ := (isNaN_iff_fields f p).mp (isNaN_widen f p ▸ hnan)
      rw [narrow_of_nan hnarrow hnan, narrowNaN_of_fraction_ne_zero (by rwa [topBits_widen]), topBits_widen]

/-! The response -/

theorem narrowResponse_of_highBits_ne_zero {f : Format} {data : Word} {k : Nat} (hwidth : f.carrierBits + k = 64)
    (h : data.extractLsb' f.carrierBits k ≠ 0#k) : narrowResponse f data = .outOfRange := by
  rw [ne_eq, extractLsb'_eq_zero_iff_lt hwidth, Nat.not_lt] at h
  exact narrowResponse_of_le h

/-- A native format keeps an operand that fits as it is (R108 to R110). -/
theorem narrowResponse_of_native {f : Format} (hnative : f.isNarrow = false) {data : Word}
    (h : data.toNat < 2 ^ f.carrierBits) : narrowResponse f data = .narrow data := by
  have hwidth : f.carrierBits = f.totalBits := by rw [f.carrierBits_eq, Format.discardedBits_native hnative, Nat.add_zero]
  rw [narrowResponse_of_lt h, narrow_of_native hnative]
  congr 1
  apply BitVec.eq_of_toNat_eq
  rw [BitVec.toNat_setWidth_of_le f.totalBits_le, BitVec.setWidth_setWidth_of_le _ hwidth.ge, BitVec.toNat_setWidth,
    Nat.mod_eq_of_lt (hwidth ▸ h)]

/-- An operand that fits is answered with the pattern of its low `W` bits (R100). -/
theorem narrowResponse_of_highBits_eq_zero {f : Format} {data : Word} {k : Nat} (hwidth : f.carrierBits + k = 64)
    (hfits : data.extractLsb' f.carrierBits k = 0#k) {p : BitVec f.totalBits}
    (hp : narrow f (data.extractLsb' 0 f.carrierBits) = p) : narrowResponse f data = .narrow (p.setWidth 64) := by
  rw [narrowResponse_of_lt ((extractLsb'_eq_zero_iff_lt hwidth data).mp hfits),
    BitVec.setWidth_eq_extractLsb' f.carrierBits_le, hp]

end Sys2Proof.Machine

namespace Sys2Proof.Proofs

open Sys2Proof.Machine

/-- Settles O19: the range check as for WIDEN; where the operand fits, the NaN test chooses the branch, and in the NaN branch
the truncated fraction whether the bit is forced. -/
theorem narrowBf8RoundsOrForces : Obligations.NarrowBf8RoundsOrForces := by
  intro d v t r
  refine ⟨fun h => ?fails, fun hfits hexponent hfraction ht => ?kept, fun hfits hexponent hfraction ht => ?forced,
    fun hfits hfields => ?rounded⟩
  case fails => exact answers_of_encode rfl (narrowResponse_of_highBits_ne_zero (f := .bf8) rfl h)
  case kept =>
    have hp := narrow_eq_topBits (f := .bf8) rfl hexponent hfraction ht
    exact answers_of_encode rfl (narrowResponse_of_highBits_eq_zero (f := .bf8) rfl hfits hp)
  case forced =>
    have hp := narrow_eq_topBits_or (f := .bf8) rfl hexponent hfraction ht
    exact answers_of_encode rfl (narrowResponse_of_highBits_eq_zero (f := .bf8) rfl hfits hp)
  case rounded =>
    have hp := narrow_eq_narrowRound (f := .bf8) rfl hfields
    exact answers_of_encode rfl (narrowResponse_of_highBits_eq_zero (f := .bf8) rfl hfits hp)

/-- Settles O20: the branches of O19 on the fields of bf16 and fp32, where the forced bit is bit 5. -/
theorem narrowBf16RoundsOrForces : Obligations.NarrowBf16RoundsOrForces := by
  intro d v t r
  refine ⟨fun h => ?fails, fun hfits hexponent hfraction ht => ?kept, fun hfits hexponent hfraction ht => ?forced,
    fun hfits hfields => ?rounded⟩
  case fails => exact answers_of_encode rfl (narrowResponse_of_highBits_ne_zero (f := .bf16) rfl h)
  case kept =>
    have hp := narrow_eq_topBits (f := .bf16) rfl hexponent hfraction ht
    exact answers_of_encode rfl (narrowResponse_of_highBits_eq_zero (f := .bf16) rfl hfits hp)
  case forced =>
    have hp := narrow_eq_topBits_or (f := .bf16) rfl hexponent hfraction ht
    exact answers_of_encode rfl (narrowResponse_of_highBits_eq_zero (f := .bf16) rfl hfits hp)
  case rounded =>
    have hp := narrow_eq_narrowRound (f := .bf16) rfl hfields
    exact answers_of_encode rfl (narrowResponse_of_highBits_eq_zero (f := .bf16) rfl hfits hp)

/-- Settles O21: the range check of each format, with the same bits where the operand fits; every word fits fp64. -/
theorem narrowNativeFormatsKeepsBits : Obligations.NarrowNativeFormatsKeepsBits := by
  intro d
  refine ⟨fun h => ?fp16Fails, fun h => ?fp16Fits, fun h => ?fp32Fails, fun h => ?fp32Fits, ?fp64⟩
  case fp16Fails => exact answers_of_encode rfl (narrowResponse_of_highBits_ne_zero (f := .fp16) rfl h)
  case fp16Fits =>
    have hfits := (extractLsb'_eq_zero_iff_lt rfl d).mp h
    exact answers_of_encode rfl (narrowResponse_of_native (f := .fp16) rfl hfits)
  case fp32Fails => exact answers_of_encode rfl (narrowResponse_of_highBits_ne_zero (f := .fp32) rfl h)
  case fp32Fits =>
    have hfits := (extractLsb'_eq_zero_iff_lt rfl d).mp h
    exact answers_of_encode rfl (narrowResponse_of_native (f := .fp32) rfl hfits)
  case fp64 => exact answers_of_encode rfl (narrowResponse_of_native (f := .fp64) rfl d.isLt)

/-- Settles O30: both requests fit, and `narrow_widen` gives the pattern back from the low bits of the word between them. -/
theorem narrowUndoesWiden : Obligations.NarrowUndoesWiden := by
  intro f p
  have hpattern : (p.setWidth 64).toNat < 2 ^ f.totalBits := by
    rw [BitVec.toNat_setWidth_of_le f.totalBits_le]
    exact p.isLt
  have hvalue : ((widen f p).setWidth 64).toNat < 2 ^ f.carrierBits := by
    rw [BitVec.toNat_setWidth_of_le f.carrierBits_le]
    exact (widen f p).isLt
  refine ⟨(widen f p).setWidth 64, ?widened, ?narrowed⟩
  case widened =>
    rw [ask_widen, widenResponse_of_lt hpattern, BitVec.setWidth_setWidth_of_le _ f.totalBits_le, BitVec.setWidth_eq]
  case narrowed =>
    rw [ask_narrow, narrowResponse_of_lt hvalue, BitVec.setWidth_setWidth_of_le _ f.carrierBits_le, BitVec.setWidth_eq,
      narrow_widen]

/-- Settles O31: the NaN branch, field by field. -/
theorem narrowKeepsNaN : Obligations.NarrowKeepsNaN := by
  intro f hnarrow v hnan
  rw [narrow_of_nan hnarrow hnan]
  refine ⟨isNaN_narrowNaN hnan, signField_narrowNaN f v, ?exponent, ?fraction⟩
  case exponent => rw [exponentField_narrowNaN, toNat_exponentField_topBits]
  case fraction => rw [toNat_fractionField_narrowNaN, toNat_fractionField_topBits]

/-- Settles O36: narrowing undoes widening (R111), on the result of a narrowing as on any pattern. -/
theorem narrowIdempotentAndOnto : Obligations.NarrowIdempotentAndOnto := fun f =>
  ⟨fun v => narrow_widen f (narrow f v), fun p => ⟨widen f p, narrow_widen f p⟩⟩

/-- Settles O38: both vectors of R114, answered by the machine. -/
theorem sourceRoundingVector : Obligations.SourceRoundingVector := by
  constructor <;> decide

/-- Settles O39: the vectors of R115, on the two shared operations alone and answered by the machine. -/
theorem naNBranchPreventsCorruption : Obligations.NaNBranchPreventsCorruption := by
  refine ⟨?rounded, ?keptAnswer, ?truncated, ?infinity, ?forcedAnswer, ?nan⟩ <;> decide

end Sys2Proof.Proofs
end

section
/-! EPS: the literal of each format. -/

namespace Sys2Proof.Proofs

open Sys2Proof.Machine

/-- Settles O23: of each EPS instruction the command byte stands in the encoder, and the response is the literal that
`epsResponse` takes from `Format.epsilon`, the operand aside. -/
theorem epsAnswersLiteral : Obligations.EpsAnswersLiteral := by
  intro d
  refine ⟨?bf8, ?bf16, ?fp16, ?fp32, ?fp64⟩ <;> exact answers_of_encode rfl rfl

end Sys2Proof.Proofs
end

section
/-! CRACK: the fields of a pattern as the digits of a number, in the pattern and in the widened one, and the answer by the
operand's high bits. -/

namespace Sys2Proof

theorem Format.exponentBits_le (f : Format) : f.exponentBits ≤ 11 := by cases f <;> decide

theorem Format.fractionBits_le (f : Format) : f.fractionBits ≤ 52 := by cases f <;> decide

end Sys2Proof

namespace Sys2Proof.Machine

/-- Nothing stands above the sign (R31). -/
theorem toNat_signField_eq_div (f : Format) (p : BitVec f.totalBits) :
    (signField f p).toNat = p.toNat / 2 ^ (f.exponentBits + f.fractionBits) := by
  have hlt : p.toNat / 2 ^ (f.exponentBits + f.fractionBits) < 2 := by
    rw [Nat.div_lt_iff_lt_mul (by positivity), ← Nat.pow_add_one', ← f.totalBits_eq]
    exact p.isLt
  rw [toNat_signField, Nat.mod_eq_of_lt hlt]

/-- The three fields are the digits of the pattern, read as a number (R30, R31), and no other pattern has these digits. -/
theorem fields_eq_iff {f : Format} {p : BitVec f.totalBits} {s : BitVec 1} {e : BitVec f.exponentBits}
    {m : BitVec f.fractionBits} :
    signField f p = s ∧ exponentField f p = e ∧ fractionField f p = m ↔
      s.toNat * 2 ^ (f.exponentBits + f.fractionBits) + e.toNat * 2 ^ f.fractionBits + m.toNat = p.toNat := by
  have hsplit : s.toNat * 2 ^ (f.exponentBits + f.fractionBits) + e.toNat * 2 ^ f.fractionBits + m.toNat =
      m.toNat + 2 ^ f.fractionBits * (e.toNat + 2 ^ f.exponentBits * s.toNat) := by ring
  have hfraction := Nat.div_mod_unique (a := p.toNat) (d := e.toNat + 2 ^ f.exponentBits * s.toNat) (c := m.toNat)
    (Nat.two_pow_pos f.fractionBits)
  have hexponent := Nat.div_mod_unique (a := p.toNat / 2 ^ f.fractionBits) (d := s.toNat) (c := e.toNat)
    (Nat.two_pow_pos f.exponentBits)
  rw [and_iff_left m.isLt] at hfraction
  rw [and_iff_left e.isLt] at hexponent
  rw [hsplit, ← hfraction, eq_comm (a := p.toNat / 2 ^ f.fractionBits), ← hexponent, and_assoc, ← BitVec.toNat_inj,
    ← BitVec.toNat_inj, ← BitVec.toNat_inj, toNat_signField_eq_div, toNat_exponentField, toNat_fractionField,
    Nat.add_comm f.exponentBits, Nat.pow_add, ← Nat.div_div_eq_div_mul]

theorem mul_two_pow_add_lt {a b i j : Nat} (ha : a < 2 ^ i) (hb : b < 2 ^ j) : a * 2 ^ j + b < 2 ^ (i + j) :=
  calc a * 2 ^ j + b < (a + 1) * 2 ^ j := by rw [Nat.add_one_mul]; omega
    _ ≤ 2 ^ i * 2 ^ j := Nat.mul_le_mul_right _ ha
    _ = 2 ^ (i + j) := (Nat.pow_add ..).symm

theorem toNat_setWidth_shiftLeft {n w k : Nat} {x : BitVec w} (h : x.toNat * 2 ^ k < 2 ^ n) :
    (x.setWidth n <<< k).toNat = x.toNat * 2 ^ k := by
  have hx : x.toNat < 2 ^ n := lt_of_le_of_lt (Nat.le_mul_of_pos_right _ (by positivity)) h
  rw [BitVec.toNat_shiftLeft, Nat.shiftLeft_eq, BitVec.toNat_setWidth, Nat.mod_eq_of_lt hx, Nat.mod_eq_of_lt h]

/-- Fields in their places do not overlap, so that OR is addition (R136), in any register that has room for them. -/
theorem toNat_or_fields {f : Format} {n a b : Nat} (hn : f.totalBits ≤ n) (s : BitVec 1) {e : BitVec a} {m : BitVec b}
    (he : e.toNat < 2 ^ f.exponentBits) (hm : m.toNat < 2 ^ f.fractionBits) :
    (s.setWidth n <<< (f.exponentBits + f.fractionBits) ||| e.setWidth n <<< f.fractionBits ||| m.setWidth n).toNat =
      s.toNat * 2 ^ (f.exponentBits + f.fractionBits) + e.toNat * 2 ^ f.fractionBits + m.toNat := by
  have hlow := mul_two_pow_add_lt he hm
  have hall : s.toNat * 2 ^ (f.exponentBits + f.fractionBits) + (e.toNat * 2 ^ f.fractionBits + m.toNat) < 2 ^ n :=
    calc _ < 2 ^ (1 + (f.exponentBits + f.fractionBits)) := mul_two_pow_add_lt s.isLt hlow
      _ = 2 ^ f.totalBits := by rw [f.totalBits_eq, Nat.add_comm 1]
      _ ≤ 2 ^ n := Nat.pow_le_pow_right (by decide) hn
  rw [BitVec.toNat_or, BitVec.toNat_or, toNat_setWidth_shiftLeft (by omega), toNat_setWidth_shiftLeft (by omega),
    BitVec.toNat_setWidth, Nat.mod_eq_of_lt (by omega), Nat.or_assoc, ← Nat.shiftLeft_eq, ← Nat.shiftLeft_eq,
    ← Nat.shiftLeft_add_eq_or_of_lt hm, ← Nat.shiftLeft_add_eq_or_of_lt (by rwa [Nat.shiftLeft_eq]), Nat.add_assoc]

/-- Cracking undoes recombining (R136). -/
theorem fields_recombine (f : Format) (s : BitVec 1) (e : BitVec f.exponentBits) (m : BitVec f.fractionBits) :
    signField f (recombine f s e m) = s ∧ exponentField f (recombine f s e m) = e ∧
      fractionField f (recombine f s e m) = m :=
  fields_eq_iff.mpr (toNat_or_fields le_rfl s e.isLt m.isLt).symm

/-! The fields of a widened pattern (R137) -/

theorem signField_widen (f : Format) (p : BitVec f.totalBits) : signField f.carrier (widen f p) = signField f p := by
  rw [← signField_topBits, topBits_widen]

theorem toNat_exponentField_widen (f : Format) (p : BitVec f.totalBits) :
    (exponentField f.carrier (widen f p)).toNat = (exponentField f p).toNat := by
  rw [← toNat_exponentField_topBits, topBits_widen]

theorem toNat_fractionField_widen (f : Format) (p : BitVec f.totalBits) :
    (fractionField f.carrier (widen f p)).toNat = (fractionField f p).toNat * 2 ^ f.discardedBits := by
  rw [toNat_fractionField, toNat_fractionField, toNat_widen, f.carrier_fractionBits, Nat.pow_add, Nat.mul_mod_mul_right]

/-! On the ports of R68 -/

theorem toNat_exponentPort (f : Format) (p : BitVec f.totalBits) :
    ((exponentField f p).setWidth 11).toNat = (exponentField f p).toNat :=
  BitVec.toNat_setWidth_of_le f.exponentBits_le

theorem toNat_fractionPort (f : Format) (p : BitVec f.totalBits) :
    ((fractionField f p).setWidth 52).toNat = (fractionField f p).toNat :=
  BitVec.toNat_setWidth_of_le f.fractionBits_le

theorem exponentPort_widen (f : Format) (p : BitVec f.totalBits) :
    (exponentField f.carrier (widen f p)).setWidth 11 = (exponentField f p).setWidth 11 := by
  apply BitVec.eq_of_toNat_eq
  rw [toNat_exponentPort, toNat_exponentPort, toNat_exponentField_widen]

theorem fractionPort_widen (f : Format) (p : BitVec f.totalBits) :
    (fractionField f.carrier (widen f p)).setWidth 52 = (fractionField f p).setWidth 52 <<< f.discardedBits := by
  have hroom : (fractionField f p).toNat * 2 ^ f.discardedBits < 2 ^ 52 :=
    calc _ = (fractionField f.carrier (widen f p)).toNat := (toNat_fractionField_widen f p).symm
      _ < 2 ^ f.carrier.fractionBits := (fractionField f.carrier (widen f p)).isLt
      _ ≤ 2 ^ 52 := Nat.pow_le_pow_right (by decide) f.carrier.fractionBits_le
  apply BitVec.eq_of_toNat_eq
  rw [toNat_fractionPort, toNat_fractionField_widen, toNat_setWidth_shiftLeft hroom]

/-! The response -/

theorem toNat_patternWord_lt (f : Format) (p : BitVec f.totalBits) : (p.setWidth 64).toNat < 2 ^ f.totalBits := by
  rw [BitVec.toNat_setWidth_of_le f.totalBits_le]
  exact p.isLt

theorem setWidth_patternWord (f : Format) (p : BitVec f.totalBits) : (p.setWidth 64).setWidth f.totalBits = p := by
  rw [BitVec.setWidth_setWidth_of_le _ f.totalBits_le, BitVec.setWidth_eq]

theorem ask_widen_pattern (f : Format) (p : BitVec f.totalBits) :
    ask (requestOf .widen f (p.setWidth 64)) = .widen ((widen f p).setWidth 64) := by
  rw [ask_widen, widenResponse_of_lt (toNat_patternWord_lt f p), setWidth_patternWord]

theorem ask_crack_pattern (f : Format) (p : BitVec f.totalBits) :
    ask (requestOf .crack f (p.setWidth 64)) =
      .crack (signField f p) ((exponentField f p).setWidth 11) ((fractionField f p).setWidth 52) := by
  rw [ask_crack, crackResponse_of_lt (toNat_patternWord_lt f p), setWidth_patternWord]

theorem crackResponse_of_highBits_ne_zero {f : Format} {data : Word} {k : Nat} (hwidth : f.totalBits + k = 64)
    (h : data.extractLsb' f.totalBits k ≠ 0#k) : crackResponse f data = .outOfRange := by
  rw [ne_eq, extractLsb'_eq_zero_iff_lt hwidth, Nat.not_lt] at h
  exact crackResponse_of_le h

/-- The fields of a pattern that fits are bits of the operand itself, in the same places (R131 to R135). -/
theorem crackResponse_eq_operandBits {f : Format} {data : Word} (h : data.toNat < 2 ^ f.totalBits) :
    crackResponse f data =
      .crack (data.extractLsb' (f.exponentBits + f.fractionBits) 1)
        ((data.extractLsb' f.fractionBits f.exponentBits).setWidth 11)
        ((data.extractLsb' 0 f.fractionBits).setWidth 52) := by
  have htotal := f.totalBits_eq
  rw [crackResponse_of_lt h, signField, exponentField, fractionField, BitVec.extractLsb'_setWidth_of_le (by omega),
    BitVec.extractLsb'_setWidth_of_le (by omega), BitVec.extractLsb'_setWidth_of_le (by omega)]

end Sys2Proof.Machine

namespace Sys2Proof.Proofs

open Sys2Proof.Machine

/-- Settles O22: the range check of each format, read off the operand's high bits, with the operand's own bits as the fields
where it fits; every word fits fp64. -/
theorem crackAnswersThreeFields : Obligations.CrackAnswersThreeFields := by
  intro d
  refine ⟨fun h => ?bf8Fails, fun h => ?bf8Fits, fun h => ?bf16Fails, fun h => ?bf16Fits, fun h => ?fp16Fails,
    fun h => ?fp16Fits, fun h => ?fp32Fails, fun h => ?fp32Fits, ?fp64⟩
  case bf8Fails => exact answers_of_encode rfl (crackResponse_of_highBits_ne_zero (f := .bf8) rfl h)
  case bf8Fits =>
    have hfits := (extractLsb'_eq_zero_iff_lt rfl d).mp h
    exact answers_of_encode rfl (crackResponse_eq_operandBits (f := .bf8) hfits)
  case bf16Fails => exact answers_of_encode rfl (crackResponse_of_highBits_ne_zero (f := .bf16) rfl h)
  case bf16Fits =>
    have hfits := (extractLsb'_eq_zero_iff_lt rfl d).mp h
    exact answers_of_encode rfl (crackResponse_eq_operandBits (f := .bf16) hfits)
  case fp16Fails => exact answers_of_encode rfl (crackResponse_of_highBits_ne_zero (f := .fp16) rfl h)
  case fp16Fits =>
    have hfits := (extractLsb'_eq_zero_iff_lt rfl d).mp h
    exact answers_of_encode rfl (crackResponse_eq_operandBits (f := .fp16) hfits)
  case fp32Fails => exact answers_of_encode rfl (crackResponse_of_highBits_ne_zero (f := .fp32) rfl h)
  case fp32Fits =>
    have hfits := (extractLsb'_eq_zero_iff_lt rfl d).mp h
    exact answers_of_encode rfl (crackResponse_eq_operandBits (f := .fp32) hfits)
  case fp64 =>
    have hfields := crackResponse_eq_operandBits (f := .fp64) d.isLt
    rw [BitVec.setWidth_eq, BitVec.setWidth_eq] at hfields
    exact answers_of_encode rfl hfields

/-- Settles O40: the fields are the digits of the pattern, which gives the sum and the one pattern of each triple; the OR of the
shifted ports is the same number. -/
theorem crackedFieldsRecombine : Obligations.CrackedFieldsRecombine := by
  refine fun f => ⟨fun p => ?machine, fun s e m => ?bijection⟩
  case machine =>
    have hdigits := (fields_eq_iff (p := p)).mp ⟨rfl, rfl, rfl⟩
    rw [← toNat_exponentPort, ← toNat_fractionPort] at hdigits
    refine ⟨_, _, _, ask_crack_pattern f p, BitVec.eq_of_toNat_eq ?_, hdigits⟩
    rw [toNat_or_fields f.totalBits_le, hdigits, BitVec.toNat_setWidth_of_le f.totalBits_le]
    · exact (toNat_exponentPort f p).trans_lt (exponentField f p).isLt
    · exact (toNat_fractionPort f p).trans_lt (fractionField f p).isLt
  case bijection =>
    refine ⟨recombine f s e m, fields_recombine f s e m, fun p hp => BitVec.eq_of_toNat_eq ?_⟩
    rw [← fields_eq_iff.mp hp, ← fields_eq_iff.mp (fields_recombine f s e m)]

/-- Settles O41: the widened pattern is a carrier's pattern, with the same sign and exponent and the shifted fraction; that the
format is narrow is not needed. -/
theorem crackCommutesWithWiden : Obligations.CrackCommutesWithWiden := by
  refine fun f _ p => ⟨_, _, _, _, ask_widen_pattern f p, ask_crack_pattern f p, ?carrier⟩
  case carrier =>
    rw [ask_crack_pattern f.carrier (widen f p), signField_widen, exponentPort_widen, fractionPort_widen]

end Sys2Proof.Proofs
end

section
/-! The host's interface: the sequences on patterns and carrier bits, the dispatch of a literal, and digits in base 2. -/

namespace Sys2Proof

theorem Format.two_pow_totalBits_le (f : Format) : 2 ^ f.totalBits ≤ 2 ^ 64 :=
  Nat.pow_le_pow_right (by decide) f.totalBits_le

end Sys2Proof

namespace Sys2Proof.Machine

/-- What DECODE yields, in the pattern's own bits (R150). -/
theorem decodedOf_pattern (f : Format) (p : BitVec f.totalBits) :
    decodedOf f (p.setWidth 64) =
      ⟨p.setWidth 64, (widen f p).setWidth 64, signField f p, (exponentField f p).setWidth 11,
        (fractionField f p).setWidth 52⟩ := by
  rw [decodedOf, setWidth_patternWord]

/-- Carrier bits on the port always fit (R69), so that ENCODE decodes the pattern they narrow to. -/
theorem encodeSequence_carrier (f : Format) (x : BitVec f.carrierBits) :
    encodeSequence f (x.setWidth 64) = .ok (decodedOf f ((narrow f x).setWidth 64)) := by
  rw [encodeSequence_of_lt (toNat_patternWord_lt f.carrier x), narrowedWord, setWidth_patternWord f.carrier x]

/-- A pattern that the machine hands out, from NARROW or from EPS, fits its format (R148). -/
theorem toNat_lt_of_ask_pattern {op : Op} {f : Format} {data p : Word}
    (h : ask (requestOf op f data) = .narrow p ∨ ask (requestOf op f data) = .eps p) : p.toNat < 2 ^ f.totalBits := by
  cases op with
  | desc => simp [ask_desc, descResponse] at h
  | widen =>
    rcases Nat.lt_or_ge data.toNat (2 ^ f.totalBits) with hfits | hlarge
    · simp [ask_widen, widenResponse_of_lt hfits] at h
    · simp [ask_widen, widenResponse_of_le hlarge] at h
  | narrow =>
    rcases Nat.lt_or_ge data.toNat (2 ^ f.carrierBits) with hfits | hlarge
    · obtain rfl : narrowedWord f data = p := by
        simpa [ask_narrow, narrowResponse_of_lt hfits, narrowedWord] using h
      exact narrowedWord_lt f data
    · simp [ask_narrow, narrowResponse_of_le hlarge] at h
  | crack =>
    rcases Nat.lt_or_ge data.toNat (2 ^ f.totalBits) with hfits | hlarge
    · simp [ask_crack, crackResponse_of_lt hfits] at h
    · simp [ask_crack, crackResponse_of_le hlarge] at h
  | eps =>
    obtain rfl : f.epsilon = p := by simpa [ask_eps, epsResponse] using h
    exact epsilon_lt f

/-! Normalisation and dispatch (R141 to R143, R147) -/

theorem normalise_underscore (a b : Text) : normalise (a ++ '_' :: b) = normalise (a ++ b) := by
  simp [normalise]

/-- The parser looks at the normalised literal alone (R141). -/
theorem parse_congr_normalise (f : Format) {l l' : Text} (h : normalise l = normalise l') : parse f l = parse f l' := by
  rw [parse, parse, h]

section Dispatch

variable {literal : Text} (f : Format) (hepsilon : isEpsilon (normalise literal) = false)

include hepsilon

theorem parse_of_malformed_value (hvalue : isValueLiteral (normalise literal) = true)
    (hparse : parseValue (normalise literal) = none) : parse f literal = .error .malformedLiteral := by
  simp [parse, hepsilon, hvalue, hparse]

variable (hvalue : isValueLiteral (normalise literal) = false)

include hvalue

theorem parse_of_malformed_integer (hparse : parseInteger (normalise literal) = none) :
    parse f literal = .error .malformedLiteral := by
  simp [parse, hepsilon, hvalue, hparse]

/-- An integer that cannot be put on the port makes no request (R147). -/
theorem parse_of_integer_off_port {z : Int} (hparse : parseInteger (normalise literal) = some z)
    (hport : z < 0 ∨ 2 ^ 64 ≤ z) : parse f literal = .error .outOfRange := by
  simp only [parse, hepsilon, hvalue, hparse, Bool.false_eq_true, if_false, if_pos hport]

theorem parse_of_integer_on_port {n : Nat} (hparse : parseInteger (normalise literal) = some (n : Int))
    (hport : n < 2 ^ 64) : parse f literal = decodeSequence f (BitVec.ofNat 64 n) := by
  have hnot : ¬((n : Int) < 0 ∨ (2 : Int) ^ 64 ≤ n) := by omega
  simp only [parse, hepsilon, hvalue, hparse, Bool.false_eq_true, if_false, if_neg hnot, BitVec.ofInt_natCast]

theorem parse_of_integer_out_of_range {z : Int} (hparse : parseInteger (normalise literal) = some z)
    (hrange : z < 0 ∨ 2 ^ f.totalBits ≤ z) : parse f literal = .error .outOfRange := by
  by_cases hport : z < 0 ∨ 2 ^ 64 ≤ z
  · exact parse_of_integer_off_port f hepsilon hvalue hparse hport
  · obtain ⟨n, rfl⟩ := Int.eq_ofNat_of_zero_le (a := z) (by omega)
    have hn : n < 2 ^ 64 := by omega
    have hlarge : 2 ^ f.totalBits ≤ n := by exact_mod_cast hrange.resolve_left (by omega)
    rw [parse_of_integer_on_port f hepsilon hvalue hparse hn]
    exact decodeSequence_of_le (by rwa [BitVec.toNat_ofNat, Nat.mod_eq_of_lt hn])

theorem parse_of_integer_in_range {n : Nat} (hparse : parseInteger (normalise literal) = some (n : Int))
    (hrange : n < 2 ^ f.totalBits) : parse f literal = .ok (decodedOf f (BitVec.ofNat 64 n)) := by
  have hn : n < 2 ^ 64 := hrange.trans_le f.two_pow_totalBits_le
  rw [parse_of_integer_on_port f hepsilon hvalue hparse hn]
  exact decodeSequence_of_lt (by rwa [BitVec.toNat_ofNat, Nat.mod_eq_of_lt hn])

end Dispatch

/-! Binary digits (R155) -/

@[simp] theorem length_binaryDigits (n x : Nat) : (binaryDigits n x).length = n := by
  simp [binaryDigits]

theorem binaryDigits_succ (n x : Nat) :
    binaryDigits (n + 1) x = (if x.testBit n then '1' else '0') :: binaryDigits n x := by
  simp [binaryDigits, List.range_succ]

theorem digitValue_two_bit (b : Bool) : digitValue 2 (if b then '1' else '0') = some b.toNat := by
  cases b <;> decide

/-- Read from the top, the digits of `x` go behind those already read. -/
theorem foldlM_binaryDigits (n x acc : Nat) :
    (binaryDigits n x).foldlM (fun acc c => (digitValue 2 c).map (2 * acc + ·)) acc = some (acc * 2 ^ n + x % 2 ^ n) := by
  induction n generalizing acc with
  | zero => simp [binaryDigits, Nat.mod_one]
  | succ n ih =>
    have hdigit : (2 * acc + (x.testBit n).toNat) * 2 ^ n + x % 2 ^ n = acc * 2 ^ (n + 1) + x % 2 ^ (n + 1) := by
      rw [Nat.toNat_testBit, Nat.mod_pow_succ]
      ring
    rw [binaryDigits_succ, List.foldlM_cons, digitValue_two_bit, ← hdigit, ← ih]
    rfl

theorem digitsValue_binaryDigits {n x : Nat} (hn : n ≠ 0) (hx : x < 2 ^ n) :
    digitsValue 2 (binaryDigits n x) = some x := by
  have hnonempty : (binaryDigits n x).isEmpty = false := by
    rw [List.isEmpty_eq_false_iff, ← List.length_pos_iff, length_binaryDigits]
    omega
  simp [digitsValue, hnonempty, foldlM_binaryDigits, Nat.mod_eq_of_lt hx]

end Sys2Proof.Machine

namespace Sys2Proof.Proofs

open Sys2Proof.Machine

/-- Settles O44: carrier bits pass the range check, and what is decoded is the pattern that NARROW gave. -/
theorem encodeSequenceReportsRoundedValue : Obligations.EncodeSequenceReportsRoundedValue := by
  intro f x
  rw [encodeSequence_carrier, decodedOf_pattern]

/-- Settles O52: the parser's check of the port and WIDEN's check of the pattern together are the format's range
check. -/
theorem integerLiteralsAreRangeChecked : Obligations.IntegerLiteralsAreRangeChecked := by
  refine ⟨fun f literal z hepsilon hvalue hparse => ⟨fun hrange => ?outside, fun hnonneg hlt => ?inside⟩,
    fun f => ?minusOne, fun f op data p => toNat_lt_of_ask_pattern⟩
  case outside => exact parse_of_integer_out_of_range f hepsilon hvalue hparse hrange
  case inside =>
    obtain ⟨n, rfl⟩ := Int.eq_ofNat_of_zero_le hnonneg
    have hrange : n < 2 ^ f.totalBits := by exact_mod_cast hlt
    have hn : n < 2 ^ 64 := hrange.trans_le f.two_pow_totalBits_le
    refine ⟨_, parse_of_integer_in_range f hepsilon hvalue hparse hrange, ?_⟩
    exact congrArg Int.ofNat ((BitVec.toNat_ofNat n 64).trans (Nat.mod_eq_of_lt hn))
  case minusOne =>
    exact parse_of_integer_off_port (z := -1) f (by decide) (by decide) (by decide) (.inl (by decide))

/-- Settles O55: the three digit strings stand in the definition; each field is below the power of its width, so its digits
read back. -/
theorem binaryStringSpellsTheFields : Obligations.BinaryStringSpellsTheFields := by
  intro f p
  have hexponentBits : f.exponentBits ≠ 0 := by cases f <;> decide
  have hfractionBits : f.fractionBits ≠ 0 := by cases f <;> decide
  have htotal := f.totalBits_eq
  refine ⟨binaryDigits 1 (signField f p).toNat, binaryDigits f.exponentBits (exponentField f p).toNat,
    binaryDigits f.fractionBits (fractionField f p).toNat, ?string, length_binaryDigits .., length_binaryDigits ..,
    length_binaryDigits .., ?length, digitsValue_binaryDigits one_ne_zero (signField f p).isLt,
    digitsValue_binaryDigits hexponentBits (exponentField f p).isLt,
    digitsValue_binaryDigits hfractionBits (fractionField f p).isLt⟩
  case string => rw [binaryString, toNat_exponentPort, toNat_fractionPort]
  case length =>
    simp only [length_binaryDigits]
    omega

/-- Settles O45: EPS answers the literal, which fits its format. -/
theorem epsilonSequenceDecodesLiteral : Obligations.EpsilonSequenceDecodesLiteral := by
  intro f
  rw [epsilonSequence_eq, decodeSequence_of_lt (epsilon_lt f)]
  exact ⟨rfl, _, rfl, rfl⟩

/-- Settles O53: each string goes to the rule that the point and the letter `n` select, and that rule reads it or not. -/
theorem dispatchOrderConsequences : Obligations.DispatchOrderConsequences := by
  refine fun f => ⟨?exponent, ?hexExponent, ?hex, ?three, rfl, by decide, ?binaryN, ?twoPoints⟩
  case exponent => exact parse_of_malformed_integer f (by decide) (by decide) (by decide)
  case hexExponent => exact parse_of_malformed_integer f (by decide) (by decide) (by decide)
  case hex => exact parse_of_integer_on_port (n := 0x4200) f (by decide) (by decide) (by decide) (by decide)
  case three => exact parse_of_integer_on_port (n := 3) f (by decide) (by decide) (by decide) (by decide)
  case binaryN => exact parse_of_malformed_value f (by decide) (by decide) (by decide)
  case twoPoints => exact parse_of_malformed_value f (by decide) (by decide) (by decide)

/-- Settles O54: the parser sees no underscore. -/
theorem underscoresMakeNoDifference : Obligations.UnderscoresMakeNoDifference :=
  fun f a b => parse_congr_normalise f (normalise_underscore a b)

end Sys2Proof.Proofs
end

section
/-! Which response is a failure: of an instruction, by its threshold, and of the host's conversion. -/

namespace Sys2Proof.Machine

theorem widenResponse_eq_outOfRange_iff {f : Format} {data : Word} :
    widenResponse f data = .outOfRange ↔ 2 ^ f.totalBits ≤ data.toNat := by
  rcases Nat.lt_or_ge data.toNat (2 ^ f.totalBits) with hfits | hlarge
  · simp [widenResponse_of_lt hfits, hfits]
  · simp [widenResponse_of_le hlarge, hlarge]

theorem narrowResponse_eq_outOfRange_iff {f : Format} {data : Word} :
    narrowResponse f data = .outOfRange ↔ 2 ^ f.carrierBits ≤ data.toNat := by
  rcases Nat.lt_or_ge data.toNat (2 ^ f.carrierBits) with hfits | hlarge
  · simp [narrowResponse_of_lt hfits, hfits]
  · simp [narrowResponse_of_le hlarge, hlarge]

theorem crackResponse_eq_outOfRange_iff {f : Format} {data : Word} :
    crackResponse f data = .outOfRange ↔ 2 ^ f.totalBits ≤ data.toNat := by
  rcases Nat.lt_or_ge data.toNat (2 ^ f.totalBits) with hfits | hlarge
  · simp [crackResponse_of_lt hfits, hfits]
  · simp [crackResponse_of_le hlarge, hlarge]

/-- An instruction fails exactly where its operand needs more bits than it may use; DESC and EPS may use all 64 (R70). -/
theorem responseOf_eq_outOfRange_iff (i : Instr) :
    responseOf i = .outOfRange ↔ 2 ^ i.operandBits ≤ i.data.toNat := by
  have hport := i.data.isLt
  unfold responseOf Instr.operandBits
  cases i.op with
  | desc => simpa [descResponse] using hport
  | widen => exact widenResponse_eq_outOfRange_iff
  | narrow => exact narrowResponse_eq_outOfRange_iff
  | crack => exact crackResponse_eq_outOfRange_iff
  | eps => simpa [epsResponse] using hport

/-- The table of R171 says where the operand ends, and is silent where it fills the port. -/
theorem failureThreshold_eq (i : Instr) :
    failureThreshold i = if i.operandBits < 64 then some (2 ^ i.operandBits) else none := by
  cases i <;> rfl

theorem exists_failureThreshold_le_iff (i : Instr) :
    (∃ n, failureThreshold i = some n ∧ n ≤ i.data.toNat) ↔ 2 ^ i.operandBits ≤ i.data.toNat := by
  rw [failureThreshold_eq]
  split
  case isTrue => simp
  case isFalse hfull =>
    have hfits : i.data.toNat < 2 ^ i.operandBits :=
      i.data.isLt.trans_le (Nat.pow_le_pow_right two_pos (not_lt.mp hfull))
    simp [hfits]

/-- Every response but the two failures is a success (R170). -/
theorem Response.status_eq_zero {r : Response} (hrange : r ≠ .outOfRange) (hlegal : r ≠ .illegalRequest) :
    r.status = 0 := by
  cases r with
  | outOfRange => exact absurd rfl hrange
  | illegalRequest => exact absurd rfl hlegal
  | _ => rfl

theorem convert_of_parse_ok {f : Format} {literal : Text} {d : Decoded} (h : parse f literal = .ok d) :
    convert f literal = .ok (report f d) := by
  simp [convert, h]

theorem convert_of_parse_error {f : Format} {literal : Text} {kind : HostFailure} (h : parse f literal = .error kind) :
    convert f literal = .error ⟨kind, literal, f⟩ := by
  simp [convert, h]

end Sys2Proof.Machine

namespace Sys2Proof.Proofs

open Sys2Proof.Machine

/-- Settles O25: every instruction completes with the response of its family, which is `OUT_OF_RANGE` exactly where the
operand exceeds its bits, and that is from the threshold on; a command that does not decode is answered by the step itself. -/
theorem outOfRangeExactlyFromThreshold : Obligations.OutOfRangeExactlyFromThreshold := by
  refine ⟨fun i s => ⟨responseOf i, exec_eq_answer i s, ?threshold, responseOf_ne_illegalRequest i, fun hrange => ?ok⟩,
    fun r e => ask_of_decode_error, rfl, rfl⟩
  case threshold => rw [responseOf_eq_outOfRange_iff, exists_failureThreshold_le_iff]
  case ok => exact Response.status_eq_zero hrange (responseOf_ne_illegalRequest i)

/-- Settles O48: the conversion fails exactly where the parser does, and adds the literal as given and the format. -/
theorem failureIsReportedWithLiteralAndFormat : Obligations.FailureIsReportedWithLiteralAndFormat := by
  intro f literal
  rcases hparse : parse f literal with kind | d
  · rw [convert_of_parse_error hparse]
    refine ⟨by simp, ?_, by simp⟩
    rintro _ ⟨⟩
    exact ⟨rfl, rfl⟩
  · rw [convert_of_parse_ok hparse]
    simp [eq_comm]

end Sys2Proof.Proofs
end

section
/-! The response of an instruction is legal for it, at every step and after every run (R68, R170, R171). -/

namespace Sys2Proof

theorem Instr.wellFormed_iff (i : Instr) : i.wellFormed = true ↔ i.data.toNat < 2 ^ i.operandBits :=
  decide_eq_true_iff

end Sys2Proof

namespace Sys2Proof.Machine

theorem responseOf_of_not_wellFormed {i : Instr} (h : i.wellFormed = false) : responseOf i = .outOfRange := by
  rwa [responseOf_eq_outOfRange_iff, ← Nat.not_lt, ← i.wellFormed_iff, Bool.not_eq_true]

theorem responseOf_status_eq_zero_iff (i : Instr) : (responseOf i).status = 0 ↔ i.wellFormed = true := by
  constructor
  · intro hstatus
    by_contra hfails
    rw [responseOf_of_not_wellFormed (Bool.not_eq_true _ ▸ hfails)] at hstatus
    exact absurd hstatus (by decide)
  · intro hfits
    have hrange : responseOf i ≠ .outOfRange := by
      rwa [ne_eq, responseOf_eq_outOfRange_iff, Nat.not_le, ← i.wellFormed_iff]
    exact Response.status_eq_zero hrange (responseOf_ne_illegalRequest i)

/-- The response of each family stays within the widths of R68. -/
theorem responseOf_legalFor (i : Instr) : (responseOf i).legalFor i := by
  cases hwf : i.wellFormed with
  | false =>
    rw [responseOf_of_not_wellFormed hwf]
    exact hwf
  | true =>
    have hfits := i.wellFormed_iff.mp hwf
    unfold responseOf
    unfold Instr.operandBits at hfits
    cases hop : i.op with
    | desc =>
      refine ⟨hop, ?_⟩
      cases i.format <;> decide
    | widen =>
      rw [hop] at hfits
      simp only [widenResponse_of_lt hfits]
      refine ⟨hop, hwf, toNat_patternWord_lt i.format.carrier _, ?_⟩
      rw [toNat_widen_setWidth hfits]
      exact Nat.dvd_mul_left ..
    | narrow =>
      rw [hop] at hfits
      simp only [narrowResponse_of_lt hfits]
      exact ⟨hop, hwf, toNat_patternWord_lt i.format _⟩
    | crack =>
      rw [hop] at hfits
      simp only [crackResponse_of_lt hfits]
      refine ⟨hop, hwf, ?_, ?_⟩
      · exact (toNat_exponentPort ..).trans_lt (BitVec.isLt _)
      · exact (toNat_fractionPort ..).trans_lt (BitVec.isLt _)
    | eps => exact ⟨hop, rfl⟩

/-- What the machine answers to a request is an answer to it. -/
theorem ask_answers (r : Request) : (ask r).answers r := by
  unfold Response.answers
  split
  case h_1 i hd => exact ask_of_decode_ok hd ▸ responseOf_legalFor i
  case h_2 e hd => exact ask_of_decode_error hd

theorem State.Inv.answer {answered : List Request} {s : State} (hinv : s.Inv answered) {r : Request}
    {response : Response} (h : response.answers r) : (s.answer response).Inv (answered ++ [r]) :=
  List.rel_append hinv (.cons h .nil)

theorem step_of_decode_ok {s : State} {r : Request} {rest : List Request} {i : Instr} (hs : s.requests = r :: rest)
    (hd : decode r = .ok i) : step s = exec i { s with requests := rest } := by
  simp [step, hs, hd]

theorem decodeTableWord_eq_some_iff {nbits w : Nat} {i : Instr} :
    decodeTableWord nbits w = some i ↔ decode (tableRequest nbits w) = .ok i := by
  unfold decodeTableWord
  split <;> simp_all

end Sys2Proof.Machine

namespace Sys2Proof.Proofs

open Sys2Proof.Machine

/-- Settles O12: an idle step keeps the state and answers nothing; any other step appends the response to the oldest request
(O7), which answers it legally. -/
theorem stepKeepsResponsesLegal : Obligations.StepKeepsResponsesLegal := by
  intro answered s t hinv hstep
  rcases step_cases s with ⟨hs, hidle⟩ | ⟨r, rest, hs, -⟩
  · obtain rfl := Host.Outcome.next.inj (hidle.symm.trans hstep)
    simpa [hs] using hinv
  · have hnext := responseDependsOnRequestAlone s r rest hs
    obtain rfl := Host.Outcome.next.inj (hnext.symm.trans hstep)
    rw [hs]
    exact hinv.answer (ask_answers r)

/-- Settles O13: the step appends the response to its request (O7), and that is the decoded instruction's. -/
theorem responseIsLegalForItsInstruction : Obligations.ResponseIsLegalForItsInstruction := by
  intro s r rest i hs hd
  refine ⟨ask r, responseDependsOnRequestAlone s r rest hs, ?_⟩
  exact ask_of_decode_ok hd ▸ responseOf_legalFor i

/-- Settles O15: `exec` appends the response of the instruction's family, which fails on an operand that does not fit and on
no other, and then with `OUT_OF_RANGE`. -/
theorem everyInstructionCompletesAndOnlyAnswers : Obligations.EveryInstructionCompletesAndOnlyAnswers := by
  refine fun i => ⟨responseOf i, exec_eq_answer i, responseOf_status_eq_zero_iff i, fun hstatus => ?_⟩
  rw [ne_eq, responseOf_status_eq_zero_iff, Bool.not_eq_true] at hstatus
  exact responseOf_of_not_wellFormed hstatus

/-- Settles O8: the run is `core_run_eq`, an induction on the number of steps. -/
theorem runAnswersRequestsInOrder : Obligations.RunAnswersRequestsInOrder := core_run_eq

/-- Settles O10: a run pairs each request with `ask` of it, so that reordering the requests reorders the pairs. -/
theorem reorderingKeepsEachResponse : Obligations.ReorderingKeepsEachResponse := by
  intro issued reordered hperm
  refine ⟨issued.map ask, reordered.map ask, core_run_length issued, core_run_length reordered, ?_⟩
  rw [← List.map_prod_left_eq_zip, ← List.map_prod_left_eq_zip]
  exact hperm.map _

/-- Settles O4: the table word's request stands in front of the others, so the step takes it. -/
theorem tableWordRunsNext : Obligations.TableWordRunsNext := fun s nbits w _ hword =>
  step_of_decode_ok (s.withFetchWord_requests nbits w) (decodeTableWord_eq_some_iff.mp hword)

/-- Settles O5: the step takes the oldest request and runs what it decodes to. -/
theorem stepRunsDecodedInstruction : Obligations.StepRunsDecodedInstruction := fun _ _ _ _ =>
  step_of_decode_ok

/-- Settles O6: of the cases of a step, an empty list of requests leaves the idle one. -/
theorem stepWithoutRequestIdles : Obligations.StepWithoutRequestIdles := by
  intro s hs
  rcases step_cases s with ⟨-, hidle⟩ | ⟨r, rest, hcons, -⟩
  · exact hidle
  · simp [hs] at hcons

/-- Settles O14: both lists are empty after reset, and the first request is answered as any request is (O7), its instruction
being the one that its encoding decodes to. -/
theorem resetAcceptsAnyFirstInstruction : Obligations.ResetAcceptsAnyFirstInstruction := by
  refine ⟨State.reset_requests, State.reset_responses, .nil, fun i => ⟨?stepped, ?executed⟩⟩
  case stepped => exact responseDependsOnRequestAlone (State.reset.issue (encode i)) (encode i) [] rfl
  case executed =>
    rw [exec_eq_answer, ask_of_decode_ok (decode_eq_ok_iff.mpr rfl)]
    rfl

/-- Settles O26: constructor by constructor, by the status and the fields that each one drives. -/
theorem statusTellsWhetherResultsAreDriven : Obligations.StatusTellsWhetherResultsAreDriven := by
  intro r
  cases r with
  | outOfRange => decide
  | illegalRequest => decide
  | _ => simp [Response.status, Response.results]

/-- Settles O47: `runLines` goes on to the rest on status `OK` only. -/
theorem hostStopsAtFirstFailure : Obligations.HostStopsAtFirstFailure := by
  intro l rest vars data hdata hfails
  simp only [runLines, hdata, if_neg hfails]

/-- Settles O43: the pattern passes the range check (R67), and a larger operand fails it at WIDEN. -/
theorem decodeSequenceYieldsValueAndFields : Obligations.DecodeSequenceYieldsValueAndFields := by
  refine fun f => ⟨fun p => ?fits, fun d hlarge => decodeSequence_of_le hlarge⟩
  rw [decodeSequence_of_lt (toNat_patternWord_lt f p), decodedOf_pattern]

/-- Settles O59: the three strings are computed. -/
theorem exponentStringShowsTheSubtraction : Obligations.ExponentStringShowsTheSubtraction := by
  refine ⟨?one, ?minusFifteen, ?minusFiftyTwo⟩ <;> decide

end Sys2Proof.Proofs
end

section
/-! Rounding: the quotient to which R104's addition rounds, and the pattern without its sign as one number, on which the
additions of the rounding branch stay (R104, R105, R113). -/

namespace Sys2Proof.Machine

/-! The rounded quotient -/

/-- What adding the bias of R104 and dropping `d` bits makes of a number. -/
def roundHalfEven (d n : Nat) : Nat := (n + (2 ^ (d - 1) - 1 + n / 2 ^ d % 2)) / 2 ^ d

section RoundHalfEven

variable {d n : Nat}

/-- The quotient itself takes no part in the rounding: it is the remainder and the bias that carry or do not. -/
theorem roundHalfEven_eq (d n : Nat) :
    roundHalfEven d n = n / 2 ^ d + (n % 2 ^ d + (2 ^ (d - 1) - 1 + n / 2 ^ d % 2)) / 2 ^ d := by
  conv_lhs => rw [roundHalfEven, ← Nat.div_add_mod n (2 ^ d), Nat.add_assoc, Nat.mul_add_div (by positivity),
    Nat.div_add_mod n (2 ^ d)]

theorem roundHalfEven_down (hd : 0 < d)
    (h : n % 2 ^ d < 2 ^ (d - 1) ∨ n % 2 ^ d = 2 ^ (d - 1) ∧ n / 2 ^ d % 2 = 0) : roundHalfEven d n = n / 2 ^ d := by
  have hhalf := Nat.two_pow_pred_add_two_pow_pred hd
  rw [roundHalfEven_eq, Nat.add_eq_left]
  exact Nat.div_eq_of_lt (by omega)

theorem roundHalfEven_up (hd : 0 < d)
    (h : 2 ^ (d - 1) < n % 2 ^ d ∨ n % 2 ^ d = 2 ^ (d - 1) ∧ n / 2 ^ d % 2 = 1) :
    roundHalfEven d n = n / 2 ^ d + 1 := by
  have hhalf := Nat.two_pow_pred_add_two_pow_pred hd
  have hrem : n % 2 ^ d < 2 ^ d := Nat.mod_lt _ (by positivity)
  rw [roundHalfEven_eq, Nat.add_left_cancel_iff]
  exact Nat.div_eq_of_lt_le (by omega) (by omega)

/-- Rounding goes down up to half a unit and up from half a unit on. -/
theorem roundHalfEven_cases (hd : 0 < d) (n : Nat) :
    roundHalfEven d n = n / 2 ^ d ∧ n % 2 ^ d ≤ 2 ^ (d - 1) ∨
      roundHalfEven d n = n / 2 ^ d + 1 ∧ 2 ^ (d - 1) ≤ n % 2 ^ d := by
  rcases Nat.lt_trichotomy (n % 2 ^ d) (2 ^ (d - 1)) with hlt | htie | hgt
  · exact .inl ⟨roundHalfEven_down hd (.inl hlt), hlt.le⟩
  · rcases Nat.mod_two_eq_zero_or_one (n / 2 ^ d) with heven | hodd
    · exact .inl ⟨roundHalfEven_down hd (.inr ⟨htie, heven⟩), htie.le⟩
    · exact .inr ⟨roundHalfEven_up hd (.inr ⟨htie, hodd⟩), htie.ge⟩
  · exact .inr ⟨roundHalfEven_up hd (.inl hgt), hgt.le⟩

theorem roundHalfEven_even_of_tie (hd : 0 < d) (htie : n % 2 ^ d = 2 ^ (d - 1)) : roundHalfEven d n % 2 = 0 := by
  rcases Nat.mod_two_eq_zero_or_one (n / 2 ^ d) with heven | hodd
  · rw [roundHalfEven_down hd (.inr ⟨htie, heven⟩), heven]
  · rw [roundHalfEven_up hd (.inr ⟨htie, hodd⟩)]
    omega

/-- Within one quotient the same bias is added; a larger quotient is at least the next one. -/
theorem roundHalfEven_mono (hd : 0 < d) {m : Nat} (h : n ≤ m) : roundHalfEven d n ≤ roundHalfEven d m := by
  rcases (Nat.div_le_div_right (c := 2 ^ d) h).eq_or_lt with hquot | hquot
  · rw [roundHalfEven, roundHalfEven, hquot]
    exact Nat.div_le_div_right (by omega)
  · have hn := roundHalfEven_cases hd n
    have hm := roundHalfEven_cases hd m
    omega

end RoundHalfEven

/-! The pattern without its sign -/

/-- Exponent and fraction of a pattern as one number: what is below the sign bit (R31). -/
def magnitudeBits (f : Format) (p : BitVec f.totalBits) : Nat := p.toNat % 2 ^ (f.exponentBits + f.fractionBits)

/-- Exponent and fraction of the infinities (R29). -/
def infBits (f : Format) : Nat := (2 ^ f.exponentBits - 1) * 2 ^ f.fractionBits

theorem toNat_eq_sign_add (f : Format) (p : BitVec f.totalBits) :
    p.toNat = (signField f p).toNat * 2 ^ (f.exponentBits + f.fractionBits) + magnitudeBits f p := by
  rw [toNat_signField_eq_div, magnitudeBits, Nat.div_add_mod']

theorem magnitudeBits_eq_fields (f : Format) (p : BitVec f.totalBits) :
    magnitudeBits f p = (exponentField f p).toNat * 2 ^ f.fractionBits + (fractionField f p).toNat := by
  rw [toNat_exponentField, toNat_fractionField, magnitudeBits, Nat.add_comm, Nat.pow_add, Nat.mod_mul, Nat.mul_comm,
    Nat.add_comm]

theorem magnitudeBits_mod_two {f : Format} (p : BitVec f.totalBits) : magnitudeBits f p % 2 = p.toNat % 2 :=
  Nat.mod_mod_of_dvd _ (dvd_pow_self 2 (by cases f <;> decide))

/-- An exponent of all ones puts the fraction on top of the infinity; any other exponent stays below it (R29). -/
theorem magnitudeBits_cases (f : Format) (p : BitVec f.totalBits) :
    ((exponentField f p).toNat = 2 ^ f.exponentBits - 1 ∧
        magnitudeBits f p = infBits f + (fractionField f p).toNat) ∨
      ((exponentField f p).toNat ≠ 2 ^ f.exponentBits - 1 ∧ magnitudeBits f p < infBits f) := by
  have he := (exponentField f p).isLt
  rw [magnitudeBits_eq_fields]
  rcases (Nat.le_sub_one_of_lt he).eq_or_lt with hones | hbelow
  · exact .inl ⟨hones, by rw [hones, infBits]⟩
  · refine .inr ⟨hbelow.ne, ?_⟩
    calc (exponentField f p).toNat * 2 ^ f.fractionBits + (fractionField f p).toNat
        < ((exponentField f p).toNat + 1) * 2 ^ f.fractionBits := by
          rw [Nat.add_one_mul]
          exact Nat.add_lt_add_left (fractionField f p).isLt _
      _ ≤ infBits f := Nat.mul_le_mul_right _ hbelow

/-- The NaNs are the patterns above the infinity (R29). -/
theorem isNaN_iff_magnitudeBits {f : Format} {p : BitVec f.totalBits} :
    isNaN f p = true ↔ infBits f < magnitudeBits f p := by
  rw [isNaN_iff, ← toNat_exponentField, ← toNat_fractionField]
  rcases magnitudeBits_cases f p with ⟨hones, hbits⟩ | ⟨hbelow, hbits⟩ <;> omega

theorem isNaN_eq_false_iff {f : Format} {p : BitVec f.totalBits} :
    isNaN f p = false ↔ magnitudeBits f p ≤ infBits f := by
  rw [← Bool.not_eq_true, isNaN_iff_magnitudeBits, Nat.not_lt]

theorem isInf_iff_magnitudeBits {f : Format} {p : BitVec f.totalBits} :
    isInf f p = true ↔ magnitudeBits f p = infBits f := by
  rw [isInf_iff, ← toNat_exponentField, ← toNat_fractionField]
  rcases magnitudeBits_cases f p with ⟨hones, hbits⟩ | ⟨hbelow, hbits⟩ <;> omega

theorem infBits_carrier (f : Format) : infBits f.carrier = infBits f * 2 ^ f.discardedBits := by
  rw [infBits, infBits, f.carrier_exponentBits, f.carrier_fractionBits, Nat.pow_add, Nat.mul_assoc]

/-! The rounding addition (R105) -/

section Rounding

variable {f : Format} (hnarrow : f.isNarrow = true) {v : BitVec f.carrierBits} (hnan : isNaN f.carrier v = false)

include hnarrow hnan

/-- The addition stays below the sign bit: even the infinity has `d` zero bits to carry into (R105). -/
theorem magnitudeBits_add_bias_lt :
    magnitudeBits f.carrier v + (roundingBias f v).toNat <
      2 ^ (f.carrier.exponentBits + f.carrier.fractionBits) := by
  have hbias := roundingBias_lt hnarrow v
  have hmagnitude := isNaN_eq_false_iff.mp hnan
  have hroom : infBits f.carrier + 2 ^ f.discardedBits ≤ 2 ^ (f.carrier.exponentBits + f.carrier.fractionBits) := by
    cases f <;> decide
  omega

theorem toNat_add_bias_lt : v.toNat + (roundingBias f v).toNat < 2 ^ f.carrierBits := by
  have hlow := magnitudeBits_add_bias_lt hnarrow hnan
  calc v.toNat + (roundingBias f v).toNat
      = (signField f.carrier v).toNat * 2 ^ (f.carrier.exponentBits + f.carrier.fractionBits) +
          (magnitudeBits f.carrier v + (roundingBias f v).toNat) := by rw [← Nat.add_assoc, ← toNat_eq_sign_add]
    _ < 2 ^ (1 + (f.carrier.exponentBits + f.carrier.fractionBits)) :=
        mul_two_pow_add_lt (signField f.carrier v).isLt hlow
    _ = 2 ^ f.carrierBits := by rw [Nat.add_comm 1, ← f.carrier.totalBits_eq]

/-- Sign and magnitude of the sum. -/
theorem toNat_add_bias :
    (v + roundingBias f v).toNat =
      (signField f.carrier v).toNat * 2 ^ (f.carrier.exponentBits + f.carrier.fractionBits) +
        (magnitudeBits f.carrier v + (roundingBias f v).toNat) := by
  rw [BitVec.toNat_add_of_lt (toNat_add_bias_lt hnarrow hnan), ← Nat.add_assoc, ← toNat_eq_sign_add]

theorem signField_add_bias : signField f.carrier (v + roundingBias f v) = signField f.carrier v := by
  apply BitVec.eq_of_toNat_eq
  rw [toNat_signField_eq_div, toNat_add_bias hnarrow hnan, Nat.mul_comm, Nat.mul_add_div (by positivity),
    Nat.div_eq_of_lt (magnitudeBits_add_bias_lt hnarrow hnan), Nat.add_zero]

theorem toNat_narrow_of_not_nan : (narrow f v).toNat = roundHalfEven f.discardedBits v.toNat := by
  rw [narrow_of_not_nan hnarrow hnan, toNat_narrowRound_of_lt (toNat_add_bias_lt hnarrow hnan), toNat_roundingBias]
  rfl

theorem signField_narrow_of_not_nan : signField f (narrow f v) = signField f.carrier v := by
  rw [narrow_of_not_nan hnarrow hnan, narrowRound, signField_topBits, signField_add_bias hnarrow hnan]

end Rounding

theorem magnitudeBits_topBits (f : Format) (v : BitVec f.carrierBits) :
    magnitudeBits f (topBits f v) = magnitudeBits f.carrier v / 2 ^ f.discardedBits := by
  rw [magnitudeBits, magnitudeBits, toNat_topBits, ← Nat.mod_mul_right_div_self, ← Nat.pow_add, f.carrier_exponentBits,
    f.carrier_fractionBits, Nat.add_comm f.discardedBits, Nat.add_assoc]

/-- The sign takes no part in rounding: magnitude goes to magnitude (R105, R113). -/
theorem magnitudeBits_narrow {f : Format} (hnarrow : f.isNarrow = true) {v : BitVec f.carrierBits}
    (hnan : isNaN f.carrier v = false) :
    magnitudeBits f (narrow f v) = roundHalfEven f.discardedBits (magnitudeBits f.carrier v) := by
  have hsum : magnitudeBits f.carrier (v + roundingBias f v) =
      magnitudeBits f.carrier v + (roundingBias f v).toNat := by
    rw [magnitudeBits, toNat_add_bias hnarrow hnan, Nat.mul_add_mod_self_right,
      Nat.mod_eq_of_lt (magnitudeBits_add_bias_lt hnarrow hnan)]
  have hparity : v.toNat / 2 ^ f.discardedBits % 2 = magnitudeBits f.carrier v / 2 ^ f.discardedBits % 2 := by
    rw [← magnitudeBits_topBits, ← toNat_topBits, magnitudeBits_mod_two]
  rw [narrow_of_not_nan hnarrow hnan, narrowRound, magnitudeBits_topBits, hsum, toNat_roundingBias, hparity]
  rfl

/-- The infinity's magnitude is a multiple of `2^d`, so that rounding does not move it. -/
theorem roundHalfEven_infBits_carrier {f : Format} (hnarrow : f.isNarrow = true) :
    roundHalfEven f.discardedBits (infBits f.carrier) = infBits f := by
  rw [infBits_carrier, roundHalfEven_down (Format.discardedBits_pos hnarrow) (.inl ?_)]
  · exact Nat.mul_div_cancel _ (by positivity)
  · rw [Nat.mul_mod_left]
    positivity

theorem exists_widen_of_native {f : Format} (hnative : f.isNarrow = false) (v : BitVec f.carrierBits) :
    ∃ p, widen f p = v := by
  rw [exists_widen_eq_iff, Format.discardedBits_native hnative]
  exact one_dvd _

theorem isNaN_narrow (f : Format) (v : BitVec f.carrierBits) : isNaN f (narrow f v) = isNaN f.carrier v := by
  cases hnarrow : f.isNarrow with
  | false =>
    obtain ⟨p, rfl⟩ := exists_widen_of_native hnarrow v
    rw [narrow_widen, isNaN_widen]
  | true =>
    cases hnan : isNaN f.carrier v with
    | true => rw [narrow_of_nan hnarrow hnan, isNaN_narrowNaN hnan]
    | false =>
      rw [isNaN_eq_false_iff, magnitudeBits_narrow hnarrow hnan, ← roundHalfEven_infBits_carrier hnarrow]
      exact roundHalfEven_mono (Format.discardedBits_pos hnarrow) (isNaN_eq_false_iff.mp hnan)

theorem magnitudeBits_widen (f : Format) (p : BitVec f.totalBits) :
    magnitudeBits f.carrier (widen f p) = magnitudeBits f p * 2 ^ f.discardedBits := by
  rw [magnitudeBits_eq_fields, magnitudeBits_eq_fields, toNat_exponentField_widen, toNat_fractionField_widen,
    f.carrier_fractionBits, Nat.pow_add]
  ring

theorem isInf_widen (f : Format) (p : BitVec f.totalBits) : isInf f.carrier (widen f p) = isInf f p := by
  rw [Bool.eq_iff_iff, isInf_iff_magnitudeBits, isInf_iff_magnitudeBits, magnitudeBits_widen, infBits_carrier,
    Nat.mul_left_inj (by positivity)]

theorem isNaN_of_isInf {f : Format} {p : BitVec f.totalBits} (h : isInf f p = true) : isNaN f p = false :=
  isNaN_eq_false_iff.mpr (isInf_iff_magnitudeBits.mp h).le

theorem isInf_narrow_of_isInf {f : Format} {v : BitVec f.carrierBits} (hinf : isInf f.carrier v = true) :
    isInf f (narrow f v) = true := by
  cases hnarrow : f.isNarrow with
  | false =>
    obtain ⟨p, rfl⟩ := exists_widen_of_native hnarrow v
    rwa [narrow_widen, ← isInf_widen]
  | true =>
    rw [isInf_iff_magnitudeBits, magnitudeBits_narrow hnarrow (isNaN_of_isInf hinf), isInf_iff_magnitudeBits.mp hinf,
      roundHalfEven_infBits_carrier hnarrow]

theorem signField_narrow (f : Format) (v : BitVec f.carrierBits) :
    signField f (narrow f v) = signField f.carrier v := by
  cases hnarrow : f.isNarrow with
  | false =>
    obtain ⟨p, rfl⟩ := exists_widen_of_native hnarrow v
    rw [narrow_widen, signField_widen]
  | true =>
    cases hnan : isNaN f.carrier v with
    | true => rw [narrow_of_nan hnarrow hnan, signField_narrowNaN]
    | false => exact signField_narrow_of_not_nan hnarrow hnan

end Sys2Proof.Machine

namespace Sys2Proof.Proofs

open Sys2Proof.Machine

/-- Settles O32: the result is the rounded quotient, whose remainder and parity decide between the two neighbours. -/
theorem roundingHasFourCases : Obligations.RoundingHasFourCases := by
  intro f hnarrow v hnan t rem half
  have hd := Format.discardedBits_pos hnarrow
  rw [toNat_narrow_of_not_nan hnarrow hnan]
  refine ⟨fun hlow => ?below, fun hhigh => ?above, fun htie heven => ?tieEven, fun htie hodd => ?tieOdd⟩
  case below => exact roundHalfEven_down hd (.inl hlow)
  case above => exact roundHalfEven_up hd (.inl hhigh)
  case tieEven => exact roundHalfEven_down hd (.inr ⟨htie, heven⟩)
  case tieOdd => exact roundHalfEven_up hd (.inr ⟨htie, hodd⟩)

/-- Settles O34: the rounded quotient is monotone over all numbers, so that the signs need not be compared. -/
theorem narrowIsMonotone : Obligations.NarrowIsMonotone := by
  intro f hnarrow v w hv hw _ hle
  rw [toNat_narrow_of_not_nan hnarrow hv, toNat_narrow_of_not_nan hnarrow hw]
  exact roundHalfEven_mono (Format.discardedBits_pos hnarrow) hle

/-- Settles O35: the addition stays below the sign bit. -/
theorem roundingNeverCarriesOut : Obligations.RoundingNeverCarriesOut := fun _ hnarrow _ hnan =>
  ⟨toNat_add_bias_lt hnarrow hnan, signField_add_bias hnarrow hnan⟩

/-- Settles O37: a native format's operand is a widened pattern, and narrowing undoes widening; the NaN branch keeps NaNs, and
the rounding branch rounds no magnitude past the infinity's. -/
theorem codecKeepsSignAndInfinity : Obligations.CodecKeepsSignAndInfinity := fun f =>
  ⟨fun v => ⟨signField_narrow f v, isInf_narrow_of_isInf, isNaN_narrow f v⟩,
    fun p => ⟨signField_widen f p, isInf_widen f p, isNaN_widen f p⟩⟩

end Sys2Proof.Proofs
end

section
/-! Values: what a pattern denotes as a function of its magnitude bits (R28), which widening keeps, and which orders the
patterns of one sign (G1, log 16). -/

namespace Sys2Proof.Machine

/-- The value of one unit in the last place where the exponent field is `e`; subnormals have that of exponent 1 (R28). -/
def unitValue (f : Format) (e : Nat) : ℚ := 2 ^ ((max e 1 : Nat) - (f.bias : ℤ) - f.fractionBits)

/-- The fraction with its hidden bit, which subnormals do not have (R28). -/
def significand (f : Format) (e m : Nat) : Nat := if e = 0 then m else 2 ^ f.fractionBits + m

/-- The value of `n` as magnitude bits, for any `n`: the infinity's stand for the value that the exponents' line would give
them next. -/
def bitsValue (f : Format) (n : Nat) : ℚ :=
  unitValue f (n / 2 ^ f.fractionBits) * significand f (n / 2 ^ f.fractionBits) (n % 2 ^ f.fractionBits)

theorem unitValue_pos (f : Format) (e : Nat) : 0 < unitValue f e := by
  unfold unitValue
  positivity

theorem unitValue_of_pos (f : Format) {e : Nat} (he : e ≠ 0) :
    unitValue f e = 2 ^ ((e : ℤ) - f.bias - f.fractionBits) := by
  rw [unitValue, max_eq_left (Nat.one_le_iff_ne_zero.mpr he)]

theorem unitValue_zero (f : Format) : unitValue f 0 = unitValue f 1 := rfl

/-- The unit doubles from one exponent to the next. -/
theorem unitValue_succ (f : Format) {e : Nat} (he : e ≠ 0) : unitValue f (e + 1) = 2 * unitValue f e := by
  rw [unitValue_of_pos f he, unitValue_of_pos f e.succ_ne_zero, ← zpow_one_add₀ two_ne_zero]
  congr 1
  push_cast
  ring

theorem unitValue_carrier (f : Format) (e : Nat) : unitValue f.carrier e * 2 ^ f.discardedBits = unitValue f e := by
  rw [unitValue, unitValue, f.carrier_bias, f.carrier_fractionBits, ← zpow_natCast, ← zpow_add₀ two_ne_zero]
  congr 1
  push_cast
  ring

theorem significand_zero (f : Format) (m : Nat) : significand f 0 m = m := rfl

theorem significand_of_pos (f : Format) {e : Nat} (he : e ≠ 0) (m : Nat) :
    significand f e m = 2 ^ f.fractionBits + m := if_neg he

theorem significand_succ (f : Format) (e m : Nat) : significand f e (m + 1) = significand f e m + 1 := by
  unfold significand
  split <;> rfl

theorem significand_carrier (f : Format) (e m r : Nat) :
    significand f.carrier e (m * 2 ^ f.discardedBits + r) = significand f e m * 2 ^ f.discardedBits + r := by
  unfold significand
  split
  · rfl
  · rw [f.carrier_fractionBits, Nat.pow_add, Nat.add_mul, Nat.add_assoc]

/-- The two lines of R28 in one: so many units. -/
theorem magnitude_eq_units (f : Format) (p : BitVec f.totalBits) :
    magnitude f p =
      unitValue f (exponentField f p).toNat * significand f (exponentField f p).toNat (fractionField f p).toNat := by
  unfold magnitude
  by_cases he : (exponentField f p).toNat = 0
  · simp only [he, if_true, significand_zero, unitValue_zero, unitValue_of_pos f one_ne_zero,
      zpow_sub₀ (two_ne_zero (α := ℚ)) _ (f.fractionBits : ℤ), zpow_natCast]
    push_cast
    field_simp
  · simp only [he, if_false, significand_of_pos f he, unitValue_of_pos f he,
      zpow_sub₀ (two_ne_zero (α := ℚ)) _ (f.fractionBits : ℤ), zpow_natCast]
    push_cast
    field_simp

theorem bitsValue_mul_add {f : Format} {e m : Nat} (hm : m < 2 ^ f.fractionBits) :
    bitsValue f (e * 2 ^ f.fractionBits + m) = unitValue f e * significand f e m := by
  rw [bitsValue, Nat.add_comm, Nat.add_mul_div_right _ _ (by positivity), Nat.add_mul_mod_self_right,
    Nat.div_eq_of_lt hm, Nat.mod_eq_of_lt hm, Nat.zero_add]

theorem magnitude_eq_bitsValue (f : Format) (p : BitVec f.totalBits) :
    magnitude f p = bitsValue f (magnitudeBits f p) := by
  rw [magnitude_eq_units, magnitudeBits_eq_fields, bitsValue_mul_add (fractionField f p).isLt]

@[simp] theorem bitsValue_zero (f : Format) : bitsValue f 0 = 0 := by simp [bitsValue, significand]

/-- A normal pattern without fraction is a power of two. -/
theorem bitsValue_exponent (f : Format) {e : Nat} (he : e ≠ 0) :
    bitsValue f (e * 2 ^ f.fractionBits) = 2 ^ ((e : ℤ) - f.bias) := by
  have h := bitsValue_mul_add (f := f) (e := e) (m := 0) (by positivity)
  rw [Nat.add_zero, significand_of_pos f he, Nat.add_zero, unitValue_of_pos f he] at h
  rw [h]
  push_cast
  rw [← zpow_natCast, ← zpow_add₀ two_ne_zero, sub_add_cancel]

theorem exists_eq_mul_add (f : Format) (n : Nat) :
    ∃ e m, m < 2 ^ f.fractionBits ∧ n = e * 2 ^ f.fractionBits + m ∧ n / 2 ^ f.fractionBits = e :=
  ⟨_, _, Nat.mod_lt n (by positivity), (Nat.div_add_mod' n _).symm, rfl⟩

/-- The next pattern is one unit larger, also where the fraction overflows into the exponent. -/
theorem bitsValue_succ (f : Format) (n : Nat) :
    bitsValue f (n + 1) = bitsValue f n + unitValue f (n / 2 ^ f.fractionBits) := by
  obtain ⟨e, m, hm, rfl, hquot⟩ := exists_eq_mul_add f n
  rw [bitsValue_mul_add hm, hquot, ← mul_add_one]
  rcases (Nat.succ_le_of_lt hm).lt_or_eq with hnext | hcarry
  · rw [Nat.add_assoc, bitsValue_mul_add hnext, significand_succ]
    push_cast
    rfl
  · have hzero := bitsValue_mul_add (f := f) (e := e + 1) (m := 0) (by positivity)
    rw [Nat.add_assoc, ← Nat.succ_eq_add_one m, hcarry, ← Nat.add_one_mul, ← Nat.add_zero ((e + 1) * _), hzero,
      significand_of_pos f e.succ_ne_zero]
    rcases Nat.eq_zero_or_pos e with rfl | hpos
    · rw [significand_zero, unitValue_zero, Nat.add_zero, ← hcarry]
      push_cast
      ring
    · rw [significand_of_pos f hpos.ne', unitValue_succ f hpos.ne', Nat.add_zero, ← hcarry]
      push_cast
      ring

theorem bitsValue_strictMono (f : Format) : StrictMono (bitsValue f) :=
  strictMono_nat_of_lt_succ fun n => by
    rw [bitsValue_succ]
    exact lt_add_of_pos_right _ (unitValue_pos f _)

/-- Between two neighbours of the format the carrier's values lie evenly spaced. -/
theorem bitsValue_carrier {f : Format} (n : Nat) {r : Nat} (hr : r < 2 ^ f.discardedBits) :
    bitsValue f.carrier (n * 2 ^ f.discardedBits + r) =
      bitsValue f n + unitValue f (n / 2 ^ f.fractionBits) * (r / 2 ^ f.discardedBits) := by
  obtain ⟨e, m, hm, rfl, hquot⟩ := exists_eq_mul_add f n
  have hsplit : (e * 2 ^ f.fractionBits + m) * 2 ^ f.discardedBits + r =
      e * 2 ^ f.carrier.fractionBits + (m * 2 ^ f.discardedBits + r) := by
    rw [f.carrier_fractionBits, Nat.pow_add]
    ring
  have hfraction : m * 2 ^ f.discardedBits + r < 2 ^ f.carrier.fractionBits :=
    f.carrier_fractionBits ▸ mul_two_pow_add_lt hm hr
  rw [bitsValue_mul_add hm, hquot, hsplit, bitsValue_mul_add hfraction, significand_carrier, ← unitValue_carrier f e]
  push_cast
  field_simp

/-! Real values -/

theorem magnitude_widen (f : Format) (p : BitVec f.totalBits) :
    magnitude f.carrier (widen f p) = magnitude f p := by
  have h := bitsValue_carrier (f := f) (magnitudeBits f p) (r := 0) (by positivity)
  rw [magnitude_eq_bitsValue, magnitude_eq_bitsValue, magnitudeBits_widen]
  simpa using h

theorem realValue_widen (f : Format) (p : BitVec f.totalBits) :
    realValue f.carrier (widen f p) = realValue f p := by
  rw [realValue, realValue, isNaN_widen, isInf_widen, signField_widen, magnitude_widen]

theorem realValue_of_isInf {f : Format} {p : BitVec f.totalBits} (hinf : isInf f p = true) :
    realValue f p = .inf (signField f p == 1) := by
  simp [realValue, isNaN_of_isInf hinf, hinf]

theorem realValue_of_finite {f : Format} {p : BitVec f.totalBits} (hnan : isNaN f p = false)
    (hinf : isInf f p = false) : realValue f p = .finite (signField f p == 1) (magnitude f p) := by
  simp [realValue, hnan, hinf]

theorem isInf_eq_false_iff {f : Format} {p : BitVec f.totalBits} :
    isInf f p = false ↔ magnitudeBits f p ≠ infBits f := by
  rw [← Bool.not_eq_true, isInf_iff_magnitudeBits]

/-- A pattern whose number is below the infinity's is not negative, and its number is its magnitude bits. -/
theorem realValue_of_toNat_lt {f : Format} {p : BitVec f.totalBits} (h : p.toNat < infBits f) :
    realValue f p = .finite false (bitsValue f p.toNat) := by
  have hroom : infBits f < 2 ^ (f.exponentBits + f.fractionBits) := by cases f <;> decide
  have hmagnitude : magnitudeBits f p = p.toNat := Nat.mod_eq_of_lt (h.trans hroom)
  have hsign : signField f p = 0#1 := by
    apply BitVec.eq_of_toNat_eq
    rw [toNat_signField_eq_div, Nat.div_eq_of_lt (h.trans hroom)]
    rfl
  rw [realValue_of_finite (isNaN_eq_false_iff.mpr (hmagnitude ▸ h.le)) (isInf_eq_false_iff.mpr (hmagnitude ▸ h.ne)),
    magnitude_eq_bitsValue, hmagnitude, hsign]
  rfl

end Sys2Proof.Machine

namespace Sys2Proof.Proofs

open Sys2Proof.Machine

/-- Settles O29: widening keeps the classes, the sign and, unit by unit, the magnitude. -/
theorem widenPreservesMeaning : Obligations.WidenPreservesMeaning := fun f p =>
  ⟨realValue_widen f p, signField_widen f p⟩

/-- Settles O42: the exponent field of the literal is `B - F`, that of 1.0 is `B`, and the pattern after 1.0 is one unit of
that exponent larger. -/
theorem epsilonIsTheGapAfterOne : Obligations.EpsilonIsTheGapAfterOne := by
  intro f one
  have hepsilon : f.epsilon.toNat = (f.bias - f.fractionBits) * 2 ^ f.fractionBits := by cases f <;> decide
  have hpattern : (f.epsilon.setWidth f.totalBits).toNat = (f.bias - f.fractionBits) * 2 ^ f.fractionBits := by
    rw [BitVec.toNat_setWidth, Nat.mod_eq_of_lt (epsilon_lt f), hepsilon]
  have hone : one.toNat = f.bias * 2 ^ f.fractionBits := by
    unfold one
    cases f <;> decide
  have hnext : (one + 1).toNat = f.bias * 2 ^ f.fractionBits + 1 := by
    unfold one
    cases f <;> decide
  have hbias : f.bias ≠ 0 ∧ f.bias - f.fractionBits ≠ 0 ∧ f.fractionBits ≤ f.bias := by cases f <;> decide
  obtain ⟨hpos, hgap, hle⟩ := hbias
  have hfinite : f.bias * 2 ^ f.fractionBits + 1 < infBits f := by cases f <;> decide
  refine ⟨hepsilon, ?literal, ?one, ?next⟩
  case literal =>
    have hbelow : (f.bias - f.fractionBits) * 2 ^ f.fractionBits ≤ f.bias * 2 ^ f.fractionBits :=
      Nat.mul_le_mul_right _ (Nat.sub_le ..)
    rw [realValue_of_toNat_lt (by omega), hpattern, bitsValue_exponent f hgap]
    congr 2
    push_cast [hle]
    ring
  case one =>
    rw [realValue_of_toNat_lt (by omega), hone, bitsValue_exponent f hpos, sub_self, zpow_zero]
  case next =>
    rw [realValue_of_toNat_lt (by omega), hnext, bitsValue_succ, bitsValue_exponent f hpos, sub_self, zpow_zero,
      Nat.mul_div_cancel _ (by positivity), unitValue_of_pos f hpos, sub_self, zero_sub]

end Sys2Proof.Proofs
end

section
/-! NARROW in values: the midpoints between neighbours of the format are patterns of the carrier, and the rounded quotient is
the nearer neighbour (R113; G1, log 16). -/

namespace Sys2Proof.Machine

/-! The rounded quotient at a midpoint and just below it -/

section Midpoint

variable {d : Nat} (hd : 0 < d) (k : Nat)

include hd

theorem half_lt_two_pow : 2 ^ (d - 1) < 2 ^ d := Nat.pow_lt_pow_right one_lt_two (Nat.sub_lt hd one_pos)

theorem mul_add_half_div : (k * 2 ^ d + 2 ^ (d - 1)) / 2 ^ d = k := by
  rw [Nat.mul_comm, Nat.mul_add_div (by positivity), Nat.div_eq_of_lt (half_lt_two_pow hd), Nat.add_zero]

theorem mul_add_half_mod : (k * 2 ^ d + 2 ^ (d - 1)) % 2 ^ d = 2 ^ (d - 1) := by
  rw [Nat.mul_add_mod_self_right, Nat.mod_eq_of_lt (half_lt_two_pow hd)]

theorem roundHalfEven_midpoint_even (heven : k % 2 = 0) : roundHalfEven d (k * 2 ^ d + 2 ^ (d - 1)) = k := by
  have hquot := mul_add_half_div hd k
  rw [roundHalfEven_down hd (.inr ⟨mul_add_half_mod hd k, hquot.symm ▸ heven⟩), hquot]

theorem roundHalfEven_midpoint_odd (hodd : k % 2 = 1) : roundHalfEven d (k * 2 ^ d + 2 ^ (d - 1)) = k + 1 := by
  have hquot := mul_add_half_div hd k
  rw [roundHalfEven_up hd (.inr ⟨mul_add_half_mod hd k, hquot.symm ▸ hodd⟩), hquot]

/-- Below the midpoint after `k` no number is rounded past `k`. -/
theorem roundHalfEven_le_of_lt_midpoint {n : Nat} (hn : n < k * 2 ^ d + 2 ^ (d - 1)) : roundHalfEven d n ≤ k := by
  have hquot : n / 2 ^ d ≤ k := mul_add_half_div hd k ▸ Nat.div_le_div_right hn.le
  rcases roundHalfEven_cases hd n with ⟨hdown, -⟩ | ⟨hup, hrem⟩
  · exact hdown.le.trans hquot
  · have hne : n / 2 ^ d ≠ k := by
      rintro rfl
      have hsplit := Nat.div_add_mod' n (2 ^ d)
      omega
    omega

end Midpoint

/-! The two neighbours of a carrier value -/

/-- Of the neighbours `a` and `b` of `x` let `y` be the nearer; no `q` outside of them is nearer still, and none but `y` itself
is as near except on a tie. -/
theorem abs_sub_le_of_nearer {a b x y q : ℚ} (hax : a ≤ x) (hxb : x ≤ b)
    (hy : y = a ∧ x - a ≤ b - x ∨ y = b ∧ b - x ≤ x - a) (hq : q ≤ a ∨ b ≤ q) :
    |y - x| ≤ |q - x| ∧ (|y - x| = |q - x| → q ≠ y → x - a = b - x) := by
  have hdist : |y - x| ≤ x - a ∧ |y - x| ≤ b - x := by
    rcases hy with ⟨rfl, hnear⟩ | ⟨rfl, hnear⟩
    · rw [abs_sub_comm, abs_of_nonneg (sub_nonneg.mpr hax)]
      exact ⟨le_rfl, hnear⟩
    · rw [abs_of_nonneg (sub_nonneg.mpr hxb)]
      exact ⟨hnear, le_rfl⟩
  obtain ⟨hleft, hright⟩ := hdist
  rcases hq with hqa | hbq
  · rw [abs_sub_comm q, abs_of_nonneg (sub_nonneg.mpr (hqa.trans hax))]
    refine ⟨by linarith, fun heq hne => ?_⟩
    rcases hy with ⟨rfl, -⟩ | ⟨rfl, hnear⟩
    · exact absurd (by linarith) (lt_of_le_of_ne hqa hne).not_ge
    · linarith
  · rw [abs_of_nonneg (sub_nonneg.mpr (hxb.trans hbq))]
    refine ⟨by linarith, fun heq hne => ?_⟩
    rcases hy with ⟨rfl, hnear⟩ | ⟨rfl, -⟩
    · linarith
    · exact absurd (by linarith) (lt_of_le_of_ne hbq hne.symm).not_ge

section Neighbours

variable {f : Format} (n : Nat)

theorem bitsValue_carrier_sub :
    bitsValue f.carrier n - bitsValue f (n / 2 ^ f.discardedBits) =
      unitValue f (n / 2 ^ f.discardedBits / 2 ^ f.fractionBits) *
        ((n % 2 ^ f.discardedBits : Nat) / 2 ^ f.discardedBits) := by
  have h := bitsValue_carrier (f := f) (n / 2 ^ f.discardedBits) (Nat.mod_lt n (by positivity))
  rw [Nat.div_add_mod'] at h
  rw [h, add_sub_cancel_left]

theorem sub_bitsValue_carrier :
    bitsValue f (n / 2 ^ f.discardedBits + 1) - bitsValue f.carrier n =
      unitValue f (n / 2 ^ f.discardedBits / 2 ^ f.fractionBits) *
        (1 - (n % 2 ^ f.discardedBits : Nat) / 2 ^ f.discardedBits) := by
  rw [bitsValue_succ, mul_one_sub, ← bitsValue_carrier_sub]
  ring

theorem bitsValue_le_carrier : bitsValue f (n / 2 ^ f.discardedBits) ≤ bitsValue f.carrier n := by
  rw [← sub_nonneg, bitsValue_carrier_sub]
  exact mul_nonneg (unitValue_pos f _).le (by positivity)

theorem carrier_le_bitsValue : bitsValue f.carrier n ≤ bitsValue f (n / 2 ^ f.discardedBits + 1) := by
  have hrem : (n % 2 ^ f.discardedBits : Nat) / (2 : ℚ) ^ f.discardedBits ≤ 1 := by
    rw [div_le_one (by positivity)]
    exact_mod_cast (Nat.mod_lt n (by positivity)).le
  rw [← sub_nonneg, sub_bitsValue_carrier]
  exact mul_nonneg (unitValue_pos f _).le (sub_nonneg.mpr hrem)

variable (hd : 0 < f.discardedBits)

include hd

theorem two_pow_discardedBits_eq : (2 : ℚ) ^ f.discardedBits = 2 * 2 ^ (f.discardedBits - 1) := by
  rw [← pow_succ', Nat.sub_add_cancel hd]

/-- The lower neighbour is the nearer one up to half a unit. -/
theorem lower_nearer_iff :
    bitsValue f.carrier n - bitsValue f (n / 2 ^ f.discardedBits) ≤
        bitsValue f (n / 2 ^ f.discardedBits + 1) - bitsValue f.carrier n ↔
      n % 2 ^ f.discardedBits ≤ 2 ^ (f.discardedBits - 1) := by
  rw [bitsValue_carrier_sub, sub_bitsValue_carrier, mul_le_mul_iff_right₀ (unitValue_pos f _), le_sub_iff_add_le,
    ← two_mul, ← mul_div_assoc, div_le_one (by positivity), two_pow_discardedBits_eq hd,
    mul_le_mul_iff_right₀ two_pos]
  exact_mod_cast Iff.rfl

theorem upper_nearer_iff :
    bitsValue f (n / 2 ^ f.discardedBits + 1) - bitsValue f.carrier n ≤
        bitsValue f.carrier n - bitsValue f (n / 2 ^ f.discardedBits) ↔
      2 ^ (f.discardedBits - 1) ≤ n % 2 ^ f.discardedBits := by
  rw [bitsValue_carrier_sub, sub_bitsValue_carrier, mul_le_mul_iff_right₀ (unitValue_pos f _), sub_le_iff_le_add,
    ← two_mul, ← mul_div_assoc, one_le_div (by positivity), two_pow_discardedBits_eq hd,
    mul_le_mul_iff_right₀ two_pos]
  exact_mod_cast Iff.rfl

/-- No value of the format is nearer to a carrier value than its rounded quotient's, and on a tie the quotient is even. -/
theorem roundHalfEven_nearest (k : Nat) :
    |bitsValue f (roundHalfEven f.discardedBits n) - bitsValue f.carrier n| ≤ |bitsValue f k - bitsValue f.carrier n| ∧
      (|bitsValue f (roundHalfEven f.discardedBits n) - bitsValue f.carrier n| =
          |bitsValue f k - bitsValue f.carrier n| →
        bitsValue f k ≠ bitsValue f (roundHalfEven f.discardedBits n) → roundHalfEven f.discardedBits n % 2 = 0) := by
  have hcases := roundHalfEven_cases hd n
  have houtside : bitsValue f k ≤ bitsValue f (n / 2 ^ f.discardedBits) ∨
      bitsValue f (n / 2 ^ f.discardedBits + 1) ≤ bitsValue f k := by
    simp only [(bitsValue_strictMono f).le_iff_le]
    omega
  have hnearer := hcases.imp (And.imp (congrArg (bitsValue f)) (lower_nearer_iff n hd).mpr)
    (And.imp (congrArg (bitsValue f)) (upper_nearer_iff n hd).mpr)
  obtain ⟨hle, htie⟩ := abs_sub_le_of_nearer (bitsValue_le_carrier n) (carrier_le_bitsValue n) hnearer houtside
  refine ⟨hle, fun heq hne => roundHalfEven_even_of_tie hd ?_⟩
  have hdist := htie heq hne
  exact le_antisymm ((lower_nearer_iff n hd).mp hdist.le) ((upper_nearer_iff n hd).mp hdist.ge)

end Neighbours

/-! The thresholds, as patterns of the carrier -/

section Thresholds

variable {f : Format} (hnarrow : f.isNarrow = true)

include hnarrow

/-- The midpoint after `k`, as a pattern of the carrier, is half a unit above `k`. -/
theorem bitsValue_midpoint (k : Nat) :
    bitsValue f.carrier (k * 2 ^ f.discardedBits + 2 ^ (f.discardedBits - 1)) =
      bitsValue f k + unitValue f (k / 2 ^ f.fractionBits) / 2 := by
  have hd := Format.discardedBits_pos hnarrow
  rw [bitsValue_carrier k (half_lt_two_pow hd), two_pow_discardedBits_eq hd]
  push_cast
  field_simp

/-- The midpoint before the infinity is the overflow threshold (R113). -/
theorem bitsValue_overflow (emax : ℤ) (hemax : emax = 2 ^ f.exponentBits - 2 - f.bias) :
    bitsValue f.carrier ((infBits f - 1) * 2 ^ f.discardedBits + 2 ^ (f.discardedBits - 1)) =
      2 ^ (emax + 1) - 2 ^ (emax - f.fractionBits - 1) := by
  have hlast : (infBits f - 1) / 2 ^ f.fractionBits = 2 ^ f.exponentBits - 2 := by cases f <;> decide
  have hsucc : infBits f - 1 + 1 = infBits f := by cases f <;> decide
  have hexponents : 2 ^ f.exponentBits - 1 ≠ 0 ∧ 2 ^ f.exponentBits - 2 ≠ 0 := by cases f <;> decide
  have hge : 2 ≤ 2 ^ f.exponentBits := by cases f <;> decide
  obtain ⟨hinf, hfinite⟩ := hexponents
  have hvalue : bitsValue f (infBits f) = 2 ^ (emax + 1) := by
    rw [infBits, bitsValue_exponent f hinf, hemax, Nat.cast_sub (by omega)]
    congr 1
    push_cast
    ring
  have hunit : unitValue f (2 ^ f.exponentBits - 2) = 2 * 2 ^ (emax - f.fractionBits - 1) := by
    rw [unitValue_of_pos f hfinite, ← zpow_one_add₀ two_ne_zero, hemax, Nat.cast_sub hge]
    congr 1
    push_cast
    ring
  have hstep := bitsValue_succ f (infBits f - 1)
  rw [hsucc, hlast, hvalue, hunit] at hstep
  rw [bitsValue_midpoint hnarrow, hlast, hunit]
  linarith

/-- The midpoint after zero is half the smallest subnormal (R113). -/
theorem bitsValue_underflow :
    bitsValue f.carrier (2 ^ (f.discardedBits - 1)) = 2 ^ (1 - (f.bias : ℤ) - f.fractionBits - 1) := by
  have h := bitsValue_midpoint hnarrow 0
  rw [Nat.zero_mul, Nat.zero_add, bitsValue_zero, Nat.zero_div, unitValue_zero, unitValue_of_pos f one_ne_zero,
    zero_add] at h
  rw [h, zpow_sub_one₀ two_ne_zero, div_eq_mul_inv, Nat.cast_one]

variable {v : BitVec f.carrierBits} (hnan : isNaN f.carrier v = false)

include hnan

theorem isInf_narrow_of_overflow
    (h : bitsValue f.carrier ((infBits f - 1) * 2 ^ f.discardedBits + 2 ^ (f.discardedBits - 1)) ≤
      magnitude f.carrier v) : isInf f (narrow f v) = true := by
  have hd := Format.discardedBits_pos hnarrow
  have hodd : (infBits f - 1) % 2 = 1 := by cases f <;> decide
  have hsucc : infBits f - 1 + 1 = infBits f := by cases f <;> decide
  rw [magnitude_eq_bitsValue, (bitsValue_strictMono _).le_iff_le] at h
  have hround := roundHalfEven_mono hd h
  rw [roundHalfEven_midpoint_odd hd _ hodd, hsucc, ← magnitudeBits_narrow hnarrow hnan] at hround
  have hnotNaN : isNaN f (narrow f v) = false := (isNaN_narrow f v).trans hnan
  exact isInf_iff_magnitudeBits.mpr (le_antisymm (isNaN_eq_false_iff.mp hnotNaN) hround)

theorem isInf_narrow_eq_false
    (h : magnitude f.carrier v <
      bitsValue f.carrier ((infBits f - 1) * 2 ^ f.discardedBits + 2 ^ (f.discardedBits - 1))) :
    isInf f (narrow f v) = false := by
  have hpos : 0 < infBits f := by cases f <;> decide
  rw [magnitude_eq_bitsValue, (bitsValue_strictMono _).lt_iff_lt] at h
  have hround := roundHalfEven_le_of_lt_midpoint (Format.discardedBits_pos hnarrow) _ h
  rw [isInf_eq_false_iff, magnitudeBits_narrow hnarrow hnan]
  omega

theorem magnitude_narrow_of_underflow
    (h : magnitude f.carrier v ≤ bitsValue f.carrier (2 ^ (f.discardedBits - 1))) :
    magnitude f (narrow f v) = 0 := by
  have hd := Format.discardedBits_pos hnarrow
  have hmidpoint := roundHalfEven_midpoint_even hd 0 rfl
  rw [Nat.zero_mul, Nat.zero_add] at hmidpoint
  rw [magnitude_eq_bitsValue, (bitsValue_strictMono _).le_iff_le] at h
  have hround := roundHalfEven_mono hd h
  rw [hmidpoint, Nat.le_zero] at hround
  rw [magnitude_eq_bitsValue, magnitudeBits_narrow hnarrow hnan, hround, bitsValue_zero]

end Thresholds

end Sys2Proof.Machine

namespace Sys2Proof.Proofs

open Sys2Proof.Machine

/-- Settles O33: both thresholds are midpoints, which are patterns of the carrier, so that the operand is compared with them
as a number; between them the rounded quotient is the nearer neighbour. -/
theorem narrowRoundsToNearestEven : Obligations.NarrowRoundsToNearestEven := by
  intro f hnarrow v hnan _ x emax
  have hoverflow := bitsValue_overflow hnarrow emax rfl
  refine ⟨signField_narrow f v, fun hx => ?overflow, fun hx => ⟨?notNaN, ?notInf, fun q _ _ => ?nearest⟩,
    fun hx => ?underflow⟩
  case overflow => exact isInf_narrow_of_overflow hnarrow hnan (hoverflow ▸ hx)
  case notNaN => rw [isNaN_narrow, hnan]
  case notInf => exact isInf_narrow_eq_false hnarrow hnan (hoverflow ▸ hx)
  case nearest =>
    have hnearest := roundHalfEven_nearest (magnitudeBits f.carrier v) (Format.discardedBits_pos hnarrow)
      (magnitudeBits f q)
    rw [← magnitudeBits_narrow hnarrow hnan, ← magnitude_eq_bitsValue, ← magnitude_eq_bitsValue,
      ← magnitude_eq_bitsValue, magnitudeBits_mod_two] at hnearest
    obtain ⟨hle, htie⟩ := hnearest
    refine ⟨hle, fun heq hne => ?_⟩
    simp [BitVec.getLsbD, Nat.testBit_zero, htie heq hne]
  case underflow => exact magnitude_narrow_of_underflow hnarrow hnan (bitsValue_underflow hnarrow ▸ hx)

end Sys2Proof.Proofs
end

section
/-! The host's conversion of a value: it finds the one pattern that denotes it, so that a value literal of a pattern's value
parses to that pattern (R146, R160; G1, log 16). -/

namespace Sys2Proof.Machine

/-- Recombining undoes cracking (R136). -/
theorem recombine_fields (f : Format) (p : BitVec f.totalBits) :
    recombine f (signField f p) (exponentField f p) (fractionField f p) = p := by
  apply BitVec.eq_of_toNat_eq
  rw [← fields_eq_iff.mp (fields_recombine f _ _ _), fields_eq_iff.mp ⟨rfl, rfl, rfl⟩]

@[simp] theorem signOf_beq_one (s : BitVec 1) : signOf (s == 1) = s := by
  revert s
  decide

/-! A value that is no NaN has one pattern -/

theorem eq_of_sign_of_magnitudeBits {f : Format} {p q : BitVec f.totalBits}
    (hsign : (signField f p == 1) = (signField f q == 1)) (hmagnitude : magnitudeBits f p = magnitudeBits f q) :
    p = q := by
  have hfields : signField f p = signField f q := by
    rw [← signOf_beq_one (signField f p), hsign, signOf_beq_one]
  apply BitVec.eq_of_toNat_eq
  rw [toNat_eq_sign_add, toNat_eq_sign_add f q, hfields, hmagnitude]

theorem realValue_eq_nan_iff {f : Format} {p : BitVec f.totalBits} : realValue f p = .nan ↔ isNaN f p = true := by
  unfold realValue
  split
  case isTrue hnan => simp [hnan]
  case isFalse hnan => split <;> simp [hnan]

theorem realValue_inj {f : Format} {p q : BitVec f.totalBits} (hnan : isNaN f p = false)
    (h : realValue f p = realValue f q) : p = q := by
  have hnan' : isNaN f q = false := by rwa [← Bool.not_eq_true, ← realValue_eq_nan_iff, ← h, realValue_eq_nan_iff,
    Bool.not_eq_true]
  cases hp : isInf f p <;> cases hq : isInf f q
  case false.false =>
    rw [realValue_of_finite hnan hp, realValue_of_finite hnan' hq, magnitude_eq_bitsValue, magnitude_eq_bitsValue] at h
    obtain ⟨hsign, hmagnitude⟩ := Val.finite.inj h
    exact eq_of_sign_of_magnitudeBits hsign ((bitsValue_strictMono f).injective hmagnitude)
  case true.true =>
    rw [realValue_of_isInf hp, realValue_of_isInf hq] at h
    exact eq_of_sign_of_magnitudeBits (Val.inf.inj h)
      ((isInf_iff_magnitudeBits.mp hp).trans (isInf_iff_magnitudeBits.mp hq).symm)
  case false.true => simp [realValue_of_finite hnan hp, realValue_of_isInf hq] at h
  case true.false => simp [realValue_of_finite hnan' hq, realValue_of_isInf hp] at h

/-! The search for it -/

theorem candidate_of_scaled {f : Format} {negative : Bool} {m : ℚ} {e k : Nat}
    (h : m * 2 ^ ((f.fractionBits : ℤ) + f.bias - (max e 1 : Nat)) = k) :
    candidate f negative m e = recombine f (signOf negative) (BitVec.ofNat _ e) (BitVec.ofNat _ k) := by
  simp only [candidate, h, Rat.num_natCast, Rat.den_natCast, Nat.cast_one, Int.ediv_one, Int.toNat_natCast]

/-- In units of the last place the magnitude is the significand, an integer, and its low `F` bits are the fraction. -/
theorem candidate_magnitude (f : Format) (p : BitVec f.totalBits) :
    candidate f (signField f p == 1) (magnitude f p) (exponentField f p).toNat = p := by
  have hunits : magnitude f p * 2 ^ ((f.fractionBits : ℤ) + f.bias - (max (exponentField f p).toNat 1 : Nat)) =
      significand f (exponentField f p).toNat (fractionField f p).toNat := by
    rw [magnitude_eq_units, mul_right_comm, unitValue, ← zpow_add₀ two_ne_zero, sub_sub,
      add_comm (f.bias : ℤ), sub_add_sub_cancel, sub_self, zpow_zero, one_mul]
  have hfraction : BitVec.ofNat f.fractionBits
      (significand f (exponentField f p).toNat (fractionField f p).toNat) = fractionField f p := by
    apply BitVec.eq_of_toNat_eq
    unfold significand
    split <;> simp
  have hexponent : BitVec.ofNat f.exponentBits (exponentField f p).toNat = exponentField f p := by simp
  rw [candidate_of_scaled hunits, signOf_beq_one, hexponent, hfraction, recombine_fields]

theorem exponentField_lt_of_finite {f : Format} {p : BitVec f.totalBits} (hnan : isNaN f p = false)
    (hinf : isInf f p = false) : (exponentField f p).toNat < 2 ^ f.exponentBits - 1 := by
  have hle := isNaN_eq_false_iff.mp hnan
  have hne := isInf_eq_false_iff.mp hinf
  have hlt := (exponentField f p).isLt
  rcases magnitudeBits_cases f p with ⟨hones, hbits⟩ | ⟨hbelow, -⟩ <;> omega

theorem findSome?_eq_some_of_unique {α β : Type} {l : List α} {g : α → Option β} {a : α} {b : β} (ha : a ∈ l)
    (hga : g a = some b) (hunique : ∀ a' b', g a' = some b' → b' = b) : l.findSome? g = some b := by
  have hsome : (l.findSome? g).isSome := List.findSome?_isSome_iff.mpr ⟨a, ha, hga ▸ rfl⟩
  obtain ⟨c, hc⟩ := Option.isSome_iff_exists.mp hsome
  obtain ⟨a', -, ha'⟩ := List.exists_of_findSome?_eq_some hc
  rw [hc, hunique a' c ha']

theorem exactPattern_realValue {f : Format} {p : BitVec f.totalBits} (hnan : isNaN f p = false) :
    exactPattern f (realValue f p) = some p := by
  cases hinf : isInf f p with
  | true =>
    have hfields : exponentField f p = BitVec.allOnes _ ∧ fractionField f p = 0#_ := by simpa [isInf] using hinf
    obtain ⟨hexponent, hfraction⟩ := hfields
    have hp := recombine_fields f p
    rw [hexponent, hfraction] at hp
    rw [realValue_of_isInf hinf, exactPattern, signOf_beq_one]
    exact congrArg some hp
  | false =>
    have hvalue := realValue_of_finite hnan hinf
    rw [hvalue]
    refine findSome?_eq_some_of_unique (List.mem_range.mpr (exponentField_lt_of_finite hnan hinf)) ?found
      fun e q hq => ?unique
    case found =>
      rw [candidate_magnitude]
      exact if_pos hvalue
    case unique =>
      obtain ⟨hcandidate, hsome⟩ := (Option.ite_none_right_eq_some ..).mp hq
      obtain rfl := Option.some.inj hsome
      exact (realValue_inj hnan (hvalue.trans hcandidate.symm)).symm

theorem isNaN_nanPattern (f : Format) (negative : Bool) (fraction : Word) :
    isNaN f (nanPattern f negative fraction) = true := by
  have hone : (1 : BitVec f.fractionBits) ≠ 0 := by cases f <;> decide
  obtain ⟨-, hexponent, hfraction⟩ := fields_recombine f (signOf negative) (BitVec.allOnes _)
    (if fraction.setWidth f.fractionBits = 0 then 1 else fraction.setWidth f.fractionBits)
  refine (isNaN_iff_fields f _).mpr ⟨hexponent, ?_⟩
  rw [nanPattern, hfraction]
  split
  · exact hone
  · assumption

/-- What the host makes of a carrier value is its pattern, whatever the open conversion is (D17). -/
theorem hostToCarrier_realValue {f : Format} (literal : Text) {p : BitVec f.carrierBits}
    (hnan : isNaN f.carrier p = false) : hostToCarrier f literal (realValue f.carrier p) = p := by
  have hvalue : realValue f.carrier p ≠ .nan := by rw [ne_eq, realValue_eq_nan_iff, hnan]; decide
  unfold hostToCarrier
  split
  case h_1 hnanValue => exact absurd hnanValue hvalue
  case h_2 => rw [exactPattern_realValue hnan]

theorem parse_of_epsilon (f : Format) {literal : Text} (h : isEpsilon (normalise literal) = true) :
    parse f literal = epsilonSequence f := by
  simp [parse, h]

/-- A literal that the dispatch takes as a value (R143), and that denotes a pattern's value, goes through the carrier to that
pattern. -/
theorem parse_of_value {f : Format} {p : BitVec f.totalBits} {literal : Text} (hnan : isNaN f p = false)
    (hepsilon : isEpsilon (normalise literal) = false) (hvalue : isValueLiteral (normalise literal) = true)
    (hparse : parseValue (normalise literal) = some (realValue f p)) :
    parse f literal = .ok (decodedOf f (p.setWidth 64)) := by
  have hcarrier : hostToCarrier f (normalise literal) (realValue f p) = widen f p := by
    rw [← realValue_widen, hostToCarrier_realValue _ (isNaN_widen f p ▸ hnan)]
  simp only [parse, hepsilon, hvalue, hparse, hcarrier, Bool.false_eq_true, if_false, if_true,
    encodeSequence_carrier, narrow_widen]

end Sys2Proof.Machine

namespace Sys2Proof.Proofs

open Sys2Proof.Machine

/-- Settles O50: the search finds the pattern that denotes the value, and a NaN is made of an exponent of all ones and a
fraction that is not zero. -/
theorem hostToCarrierIsExactOnCarrierValues : Obligations.HostToCarrierIsExactOnCarrierValues := fun f literal =>
  ⟨fun _ hnan => hostToCarrier_realValue literal hnan, isNaN_nanPattern f.carrier _ _⟩

/-- Settles O58: the value is that of the widened pattern (R96), which the host finds and narrowing gives back (R111). -/
theorem exactLiteralReparsesToItsPattern : Obligations.ExactLiteralReparsesToItsPattern :=
  fun _ _ _ hnan hepsilon hvalue hparse => ⟨_, parse_of_value hnan hepsilon hvalue hparse, rfl⟩

/-- Settles O49: the integer and the word go to DECODE and EPSILON, and each value literal denotes the value of the pattern
that the source gives. -/
theorem sourceLiteralExamples : Obligations.SourceLiteralExamples := by
  have hthree : realValue .fp32 0x40400000#32 = .finite false 3 := by decide +kernel
  have hinf : realValue .fp64 0x7FF0000000000000#64 = .inf false := realValue_of_isInf (by decide)
  refine ⟨?hex, by decide +kernel, ?hexFloat, ?decimal, hthree, ?epsilon, ?inf⟩
  case hex => exact parse_of_integer_in_range (n := 0x4200) .fp16 (by decide) (by decide) (by decide) (by decide)
  case hexFloat =>
    exact parse_of_value (f := .fp32) (p := 0x40400000#32) (by decide) (by decide) (by decide)
      (hthree ▸ by decide +kernel)
  case decimal =>
    exact parse_of_value (f := .fp32) (p := 0x40400000#32) (by decide) (by decide) (by decide)
      (hthree ▸ by decide)
  case epsilon => exact (parse_of_epsilon .fp64 (by decide)).trans (epsilonSequence_eq .fp64)
  case inf =>
    exact parse_of_value (f := .fp64) (p := 0x7FF0000000000000#64) (by decide) (by decide) (by decide)
      (hinf ▸ by decide)

end Sys2Proof.Proofs
end

section
/-! Text: digit strings read back as their numbers, integer literals as the patterns they spell (R147, R159), and the strip
rule (R157). -/

namespace Sys2Proof.Machine

/-! Digits of a number -/

/-- A character that is a digit in base 16 is the same digit in every base above it. -/
theorem digitValue_of_sixteen {base d : Nat} {c : Char} (hc : digitValue 16 c = some d) (hd : d < base) :
    digitValue base c = some d := by
  unfold digitValue at hc ⊢
  rw [Option.filter_eq_some_iff] at hc ⊢
  obtain ⟨hdigit, -⟩ := hc
  exact ⟨hdigit, decide_eq_true hd⟩

theorem digitValue_digitChar : ∀ d < 16, digitValue 16 (Nat.digitChar d) = some d := by decide

theorem digitValue_digitChar_toUpper : ∀ d < 16, digitValue 16 (Nat.digitChar d).toUpper = some d := by decide

section ToDigits

variable {base : Nat} (hbase : 1 < base) (n : Nat)

include hbase

theorem exists_of_mem_toDigits {c : Char} (hc : c ∈ Nat.toDigits base n) : ∃ d < base, c = Nat.digitChar d := by
  induction n using Nat.strongRecOn with
  | ind n ih =>
    rw [Nat.toDigits_eq_if hbase] at hc
    split at hc
    case isTrue hlt => exact ⟨n, hlt, List.mem_singleton.mp hc⟩
    case isFalse hge =>
      rcases List.mem_append.mp hc with hhigh | hlast
      · exact ih (n / base) (Nat.div_lt_self (by omega) hbase) hhigh
      · exact ⟨n % base, Nat.mod_lt n (by omega), List.mem_singleton.mp hlast⟩

/-- The first digit of a positive number is not zero. -/
theorem exists_toDigits_eq_cons (hn : 0 < n) :
    ∃ d ds, 0 < d ∧ d < base ∧ Nat.toDigits base n = Nat.digitChar d :: ds := by
  induction n using Nat.strongRecOn with
  | ind n ih =>
    rw [Nat.toDigits_eq_if hbase]
    split
    case isTrue hlt => exact ⟨n, [], hn, hlt, rfl⟩
    case isFalse hge =>
      obtain ⟨d, ds, hpos, hlt, hdigits⟩ :=
        ih (n / base) (Nat.div_lt_self hn hbase) (Nat.div_pos (by omega) (by omega))
      exact ⟨d, ds ++ [_], hpos, hlt, by rw [hdigits, List.cons_append]⟩

variable {spell : Char → Char} (hspell : ∀ d < base, digitValue base (spell (Nat.digitChar d)) = some d)

include hspell

theorem foldlM_toDigits :
    ((Nat.toDigits base n).map spell).foldlM (fun acc c => (digitValue base c).map (base * acc + ·)) 0 = some n := by
  induction n using Nat.strongRecOn with
  | ind n ih =>
    rw [Nat.toDigits_eq_if hbase]
    split
    case isTrue hlt => simp [hspell n hlt]
    case isFalse hge =>
      have hlast := hspell (n % base) (Nat.mod_lt n (by omega))
      rw [List.map_append, List.foldlM_append, ih (n / base) (Nat.div_lt_self (by omega) hbase)]
      simp [hlast, Nat.div_add_mod]

/-- The digits of a number, however the digit characters are spelled, read back as the number. -/
theorem digitsValue_toDigits : digitsValue base ((Nat.toDigits base n).map spell) = some n := by
  rw [digitsValue, foldlM_toDigits hbase n hspell]
  simp [Nat.toDigits_ne_nil]

end ToDigits

theorem digitsValue_decimal (n : Nat) : digitsValue 10 (decimal n) = some n := by
  have h := digitsValue_toDigits (base := 10) (by decide) n (spell := id)
    fun d hd => digitValue_of_sixteen (digitValue_digitChar d (by omega)) hd
  rwa [List.map_id] at h

theorem digitsValue_hexDigits (n : Nat) : digitsValue 16 (hexDigits n) = some n :=
  digitsValue_toDigits (by decide) n digitValue_digitChar_toUpper

/-- Zeros in front of the digits change nothing. -/
theorem foldlM_zeros_append (base k : Nat) (hbase : 0 < base) (s : Text) :
    (List.replicate k '0' ++ s).foldlM (fun acc c => (digitValue base c).map (base * acc + ·)) 0 =
      s.foldlM (fun acc c => (digitValue base c).map (base * acc + ·)) 0 := by
  have hzero : digitValue base '0' = some 0 := digitValue_of_sixteen (by decide) hbase
  induction k with
  | zero => simp
  | succ k ih => simpa [List.replicate_succ, hzero] using ih

theorem digitsValue_hexPadded (width n : Nat) : digitsValue 16 (hexPadded width n) = some n := by
  have hdigits := digitsValue_hexDigits n
  have hnonempty : hexDigits n ≠ [] := by simp [hexDigits, Nat.toDigits_ne_nil]
  unfold digitsValue at hdigits ⊢
  rw [hexPadded, foldlM_zeros_append 16 _ (by decide)]
  simpa [hnonempty] using hdigits

/-- The digits that the host writes (R155, R159). -/
def hexDigitChars : Text := ['0', '1', '2', '3', '4', '5', '6', '7', '8', '9', 'A', 'B', 'C', 'D', 'E', 'F']

theorem mem_hexDigitChars_of_mem_hexDigits {n : Nat} {c : Char} (hc : c ∈ hexDigits n) : c ∈ hexDigitChars := by
  obtain ⟨c', hc', rfl⟩ := List.mem_map.mp hc
  obtain ⟨d, hd, rfl⟩ := exists_of_mem_toDigits (by decide) n hc'
  have hdigits : ∀ d < 16, (Nat.digitChar d).toUpper ∈ hexDigitChars := by decide
  exact hdigits d hd

theorem mem_hexDigitChars_of_mem_hexPadded {width n : Nat} {c : Char} (hc : c ∈ hexPadded width n) :
    c ∈ hexDigitChars := by
  rcases List.mem_append.mp hc with hpad | hdigit
  · rw [List.eq_of_mem_replicate hpad]
    decide
  · exact mem_hexDigitChars_of_mem_hexDigits hdigit

theorem mem_hexDigitChars_of_mem_decimal {n : Nat} {c : Char} (hc : c ∈ decimal n) : c ∈ hexDigitChars := by
  obtain ⟨d, hd, rfl⟩ := exists_of_mem_toDigits (by decide) n hc
  have hdigits : ∀ d < 10, Nat.digitChar d ∈ hexDigitChars := by decide
  exact hdigits d hd

theorem mem_hexDigitChars_of_mem_binaryDigits {n x : Nat} {c : Char} (hc : c ∈ binaryDigits n x) :
    c ∈ hexDigitChars := by
  obtain ⟨i, -, rfl⟩ := List.mem_map.mp hc
  split <;> decide

/-! Integer literals (R147) -/

/-- A text that the dispatch takes as an integer: its characters are digits and the letters of the two prefixes, and it
begins with a decimal digit. -/
structure IsIntegerText (s : Text) : Prop where
  chars : ∀ c ∈ s, c ∈ 'x' :: 'b' :: hexDigitChars
  head : ∃ d < 10, ∃ t, s = Nat.digitChar d :: t

/-- None of these characters is a separator, a blank, a point or an `n`. -/
theorem integerText_char : ∀ c ∈ 'x' :: 'b' :: hexDigitChars,
    c ≠ '_' ∧ ¬ c.isWhitespace = true ∧ ¬ (c == '.' || c == 'n' || c == 'N') = true := by
  simp [hexDigitChars, Char.isWhitespace]

theorem digitChar_head : ∀ d < 10, (Nat.digitChar d).isWhitespace = false ∧ (Nat.digitChar d).toLower ≠ 'e' ∧
    Nat.digitChar d ≠ '-' ∧ Nat.digitChar d ≠ '+' ∧ (0 < d → Nat.digitChar d ≠ '0') := by decide

namespace IsIntegerText

variable {s : Text} (hs : IsIntegerText s)

include hs

theorem normalise_eq : normalise s = s :=
  List.filter_eq_self.mpr fun c hc =>
    have ⟨hunderscore, _, _⟩ := integerText_char c (hs.chars c hc)
    decide_eq_true hunderscore

theorem isValueLiteral_eq_false : isValueLiteral s = false :=
  List.any_eq_false.mpr fun c hc =>
    have ⟨_, _, hvalue⟩ := integerText_char c (hs.chars c hc)
    hvalue

theorem any_isWhitespace_eq_false : s.any Char.isWhitespace = false :=
  List.any_eq_false.mpr fun c hc =>
    have ⟨_, hspace, _⟩ := integerText_char c (hs.chars c hc)
    hspace

theorem isEpsilon_eq_false : isEpsilon s = false := by
  obtain ⟨d, hd, t, rfl⟩ := hs.head
  obtain ⟨hspace, he, -⟩ := digitChar_head d hd
  simp [isEpsilon, lower, hspace, he]

/-- With no blank and no sign, the settled cases decide. -/
theorem parseInteger_eq {n : Nat} (hsettled : settledNat s = some (some n)) : parseInteger s = some (n : Int) := by
  have hspace := hs.any_isWhitespace_eq_false
  obtain ⟨d, hd, t, rfl⟩ := hs.head
  obtain ⟨-, -, hminus, -⟩ := digitChar_head d hd
  simp [parseInteger, hspace, hminus, hsettled]

theorem parse_eq {f : Format} {p : BitVec f.totalBits} (hsettled : settledNat s = some (some p.toNat)) :
    parse f s = decodeSequence f (p.setWidth 64) := by
  have hport : p.toNat < 2 ^ 64 := p.isLt.trans_le f.two_pow_totalBits_le
  have hnormal := hs.normalise_eq
  rw [parse_of_integer_on_port f (hnormal.symm ▸ hs.isEpsilon_eq_false) (hnormal.symm ▸ hs.isValueLiteral_eq_false)
    (hnormal.symm ▸ hs.parseInteger_eq hsettled) hport, BitVec.ofNat_toNat]

end IsIntegerText

/-- `0x` or `0b`, and digits behind it. -/
theorem isIntegerText_prefixed {c : Char} (hc : c = 'x' ∨ c = 'b') {ds : Text} (hds : ∀ d ∈ ds, d ∈ hexDigitChars) :
    IsIntegerText ('0' :: c :: ds) where
  chars := by
    intro d hd
    rcases List.mem_cons.mp hd with rfl | hd
    · decide
    · rcases List.mem_cons.mp hd with rfl | hd
      · rcases hc with rfl | rfl <;> simp
      · exact .tail _ (.tail _ (hds d hd))
  head := ⟨0, by decide, c :: ds, rfl⟩

theorem isIntegerText_decimal (n : Nat) : IsIntegerText (decimal n) where
  chars := fun _ hd => .tail _ (.tail _ (mem_hexDigitChars_of_mem_decimal hd))
  head := by
    rcases Nat.eq_zero_or_pos n with rfl | hn
    · exact ⟨0, by decide, [], rfl⟩
    · obtain ⟨d, ds, -, hd, hdigits⟩ := exists_toDigits_eq_cons (base := 10) (by decide) n hn
      exact ⟨d, hd, ds, hdigits⟩

theorem settledNat_hex (ds : Text) : settledNat ('0' :: 'x' :: ds) = some (digitsValue 16 ds) := rfl

theorem settledNat_binary (ds : Text) : settledNat ('0' :: 'b' :: ds) = some (digitsValue 2 ds) := rfl

/-- A decimal number is `0` or begins with a digit that is not zero, so no text of R147's open cases. -/
theorem settledNat_decimal (n : Nat) : settledNat (decimal n) = some (some n) := by
  rcases Nat.eq_zero_or_pos n with rfl | hn
  · rfl
  · obtain ⟨d, ds, hpos, hd, hdigits⟩ := exists_toDigits_eq_cons (base := 10) (by decide) n hn
    obtain ⟨-, -, -, hplus, hzero⟩ := digitChar_head d hd
    have hvalue := digitsValue_decimal n
    rw [decimal, hdigits] at hvalue ⊢
    simp [settledNat, hzero hpos, hplus, hvalue]

/-! The strip rule (R157) -/

theorem collapse_of_prefix {run t : Text} (h : run ++ ['p'] <+: t) : collapse run t = some (t.drop run.length) := by
  cases t with
  | nil => simp at h
  | cons c cs => exact if_pos (List.isPrefixOf_iff_prefix.mpr h)

theorem collapse_cons_of_not_prefix {run cs : Text} {c : Char} (h : ¬ run ++ ['p'] <+: c :: cs) :
    collapse run (c :: cs) = (collapse run cs).map (c :: ·) :=
  if_neg (mt List.isPrefixOf_iff_prefix.mp h)

/-- A text in which no `p` stands early enough does not begin with the run and a `p`. -/
theorem not_prefix_of_notMem {run a : Text} (ha : 'p' ∉ a) (hlength : run.length < a.length) (b : Text) :
    ¬ run ++ ['p'] <+: a ++ b := by
  intro h
  have hprefix : run ++ ['p'] <+: a :=
    List.prefix_of_prefix_length_le h (List.prefix_append a b) (by simpa using hlength)
  exact ha (hprefix.subset (by simp))

/-- In front of the first `p` there is no place to strip but the last `run`. -/
theorem collapse_append {run : Text} (hrun : 'p' ∉ run) (before after : Text) (hbefore : 'p' ∉ before) :
    collapse run (before ++ run ++ 'p' :: after) = some (before ++ 'p' :: after) := by
  induction before with
  | nil =>
    rw [List.nil_append, collapse_of_prefix ⟨after, by simp⟩, List.drop_left]
    rfl
  | cons c cs ih =>
    have hcs : 'p' ∉ cs := fun hp => hbefore (.tail _ hp)
    have hnot : ¬ run ++ ['p'] <+: c :: (cs ++ run ++ 'p' :: after) :=
      not_prefix_of_notMem (a := c :: cs ++ run) (by simpa [hrun] using hbefore) (by simp) ('p' :: after)
    rw [List.cons_append, List.cons_append, collapse_cons_of_not_prefix hnot, ih hcs]
    rfl

theorem stripHexFloat_of_run {f : Format} {n : Nat} (hn : strippedZeros f = some n) {before : Text}
    (hbefore : 'p' ∉ before) (after : Text) :
    stripHexFloat f (before ++ List.replicate n '0' ++ 'p' :: after) = before ++ 'p' :: after := by
  have hrun : 'p' ∉ List.replicate n '0' := by simp [List.mem_replicate]
  simp only [stripHexFloat, hn, collapse_append hrun before after hbefore, Option.getD_some]

end Sys2Proof.Machine

namespace Sys2Proof.Proofs

open Sys2Proof.Machine

/-- Settles O51: each spelling goes to the integer rule and is one of its settled cases, and its digits read back as the
pattern. -/
theorem integerLiteralsDenoteTheirDigits : Obligations.IntegerLiteralsDenoteTheirDigits := by
  refine fun f p => ⟨?hex, ?binary, ?decimal⟩
  case hex =>
    have htext := isIntegerText_prefixed (.inl rfl) fun c => mem_hexDigitChars_of_mem_hexDigits (n := p.toNat) (c := c)
    exact htext.parse_eq (by rw [settledNat_hex, digitsValue_hexDigits])
  case binary =>
    have hwidth : f.totalBits ≠ 0 := by cases f <;> decide
    have htext := isIntegerText_prefixed (.inr rfl) fun c =>
      mem_hexDigitChars_of_mem_binaryDigits (n := f.totalBits) (x := p.toNat) (c := c)
    exact htext.parse_eq (by rw [settledNat_binary, digitsValue_binaryDigits hwidth p.isLt])
  case decimal => exact (isIntegerText_decimal p.toNat).parse_eq (settledNat_decimal p.toNat)

/-- Settles O56: the padding puts zeros in front of the digits, and neither they nor the upper case change what is read. -/
theorem fractionStringReadsBack : Obligations.FractionStringReadsBack := fun _ _ =>
  ⟨_, rfl, digitsValue_hexPadded .., fun _ => mem_hexDigitChars_of_mem_hexPadded⟩

/-- Settles O57: the run that stands before the first `p` is the first one that a `p` follows. -/
theorem hexFloatStripRule : Obligations.HexFloatStripRule := fun _ after hbefore =>
  ⟨stripHexFloat_of_run rfl hbefore after, stripHexFloat_of_run rfl hbefore after,
    stripHexFloat_of_run rfl hbefore after⟩

end Sys2Proof.Proofs
end
